-- ==== Sys2Proof/Word.lean ====
section
/-! DEFINITION. The word types of the SA-220: bytes, 16-bit values, station time and 12-character texts. -/

namespace Sys2Proof

/-- One byte: a link character, a site port byte, an area set, a claim number, a station number as it travels. -/
abbrev Byte := BitVec 8

/-- A 16-bit value: a name version, a fingerprint, a CRC-16 (R188). -/
abbrev Half := BitVec 16

/-- Station time: a 32-bit count of 20 ms intervals since the last start, wrapping at 2^32 (00_scope.md, Time bases). -/
abbrev Time := BitVec 32

/-- A text of 12 characters: a programme name or a label (chapter Programme Name and Labels, Characters). -/
abbrev Text := Vector Byte 12

end Sys2Proof
end

