-- ==== Sys2Proof/Config.lean ====
section
/-! DEFINITION. What the part fixes (capacities, codes of one value, periods) and the one free value the model leaves open:
the random source. -/

namespace Sys2Proof.Config

/-- FREE VALUE. The `k`-th value drawn from the part's random source (R24, R115, R184). It has no body: nothing in Lean can
evaluate it, so a claim about the model holds whatever the source delivers. The log entry is notes/assumptions/1.md. -/
opaque random : Nat → Nat

/-- R1: the Claim Table never holds more than 16 entries. -/
def claimCapacity : Nat := 16

/-- R111: the outgoing queue holds at most 8 frames. -/
def queueCapacity : Nat := 8

/-- R176: the event queue holds at most 16 event records. -/
def eventCapacity : Nat := 16

/-- R81: the history of a physical channel is a list of at most 8 records. -/
def historyCapacity : Nat := 8

/-- Time bases (00_scope.md): each second of the count spans 50 intervals of station time. -/
def intervalsPerSecond : Nat := 50

/-- The start character of every link frame (R102, chapter Format Tables). -/
def startCharacter : Byte := 0xC3

/-- The format mark of an acceptable configuration image (R181). -/
def formatMark : Byte := 0x3C

/-- R146: the seconds between two repeats of a name of own origin. -/
def nameRepeatSeconds : Nat := 30

/-- R107: the seconds that separate two DUPLICATE_STATION events. -/
def duplicateSeconds : Nat := 60

/-- R163: the gap, in milliseconds, at which the reference is taken as not present. -/
def gapMilliseconds : Nat := 5

/-- R166: the time in RETURNING, in milliseconds, at which the return is complete. -/
def stableMilliseconds : Nat := 2000

/-- R119: the attempt whose collision drops the frame. -/
def lastAttempt : Nat := 5

end Sys2Proof.Config
end

