-- ==== Sys2Proof/Syntax.lean ====
section
/-! DEFINITION. The commands of the block: one constructor for each row of spec/opcode_table.json, in the table's order.
A command is an input, an event on a pin, a timer event or a site port command; the table gives none of them any bits. -/

namespace Sys2Proof

/-- The commands of the SA-220. The rows on link characters carry the character as the receive input gives it, and whether
its stop bit was sampled away from the rest level (R100, a framing error). -/
inductive Instr where
  /-- Power comes on (R184). -/
  | powerOn
  /-- The reset pin is asserted (R186). -/
  | resetPinAssert
  /-- The reset pin is released (R186). -/
  | resetPinRelease
  /-- The read of the configuration image ends; `image` is what was read (R180, R181). -/
  | loadComplete (image : Vector Byte 203)
  /-- The four cue inputs are sampled (R63). `order` says in which of the 24 orders the four samples are taken: the spec
  leaves that order open (R72). -/
  | cueSample (v0 v1 v2 v3 : Byte) (order : Fin 24)
  /-- The age step of the present increase of the second count (R35). -/
  | ageStep
  /-- The claim lifetime of the remote entry (origin, number) has passed (R13). -/
  | claimLifetimeExpiry (origin number : Byte)
  /-- The ending tail of the entry (origin, number) has passed (R15). -/
  | endingTailExpiry (origin number : Byte)
  /-- The refresh of the local entry with this number falls due (R21). -/
  | localRefresh (number : Byte)
  /-- The next release repeat of the local entry with this number falls due (R22). -/
  | releaseRepeat (number : Byte)
  /-- The guard timer expires (R50). -/
  | guardTimerExpiry
  /-- The absence deadline of this peer is tested (R129). -/
  | peerDeadlineReached (station : Byte)
  /-- The presence timer reaches the period of the present level (R136). -/
  | periodicPresence
  /-- The downshift test (R135). -/
  | downshiftTest
  /-- The repeat timer reaches 30 (R146). -/
  | nameRepeat
  /-- The line has rested for 4 character times (R101). -/
  | lineIdle
  /-- A character other than a clean 0xC3 is received in READY (R102). -/
  | strayCharacter (value : Byte) (framingError : Bool)
  /-- A length character outside 3..20 is received (R103). -/
  | badLengthCharacter (value : Byte) (framingError : Bool)
  /-- The line has rested for 2 character times inside an assembly (R103). -/
  | assemblyAbandoned
  /-- The last character of an assembly that fails a check of R104. -/
  | discardedAssembly (last : Byte) (framingError : Bool)
  /-- The last character of an accepted CLAIM frame (R108, R6 to R10). -/
  | claimFrame (last : Byte)
  /-- The last character of an accepted RELEASE frame (R11). -/
  | releaseFrame (last : Byte)
  /-- The last character of an accepted LAPSE frame (R12). -/
  | lapseFrame (last : Byte)
  /-- The last character of an accepted PRESENCE frame (R127). -/
  | presenceFrame (last : Byte)
  /-- The last character of an accepted NAME frame (R144). -/
  | nameFrame (last : Byte)
  /-- The head's backoff count is 0 with the line idle (R115). -/
  | backoffExpiry
  /-- The last CRC character of the head is read back equal (R117). -/
  | frameSent
  /-- The own character on the line is read back as `value` (R118). -/
  | collision (value : Byte) (framingError : Bool)
  /-- A rising edge of the reference tone (R163, R165). -/
  | referenceEdge
  /-- The gap timer reaches 5 ms (R163, R164). -/
  | referenceGap
  /-- The stable timer reaches 2 s (R166). -/
  | returnComplete
  /-- A cell boundary: the next cell is chosen (R159). -/
  | cellBegin
  /-- Site port command STATUS (R174). -/
  | status
  /-- Site port command EVENTS (R177). -/
  | events
  /-- Site port command CLAIMS (R175). -/
  | claims
  /-- Site port command PEERS (R139). -/
  | peers
  /-- Site port command CUE_HISTORY (R84). -/
  | cueHistory
  /-- Site port command SET_NAME with its 12 characters (R145). -/
  | setName (text : Text)
  /-- Site port command MANUAL_CUE with parameter 0x01 (R78). -/
  | manualCueStart
  /-- Site port command MANUAL_CUE with parameter 0x02 (R79). -/
  | manualCueStop
  /-- Site port command MANUAL_CUE with another parameter byte (R79). -/
  | manualCueUnknown (parameter : Byte)
  /-- Site port command CLEAR (R187). -/
  | clear
  /-- Site port command RESTART (R172). -/
  | restart
  /-- Chip select rises at the end of the RESTART transaction (R186). -/
  | restartStart
  /-- A command byte that is no command code (R189). -/
  | unknownCommand (code : Byte)
  /-- Chip select rises before the command's last byte (R171). -/
  | transactionAbandoned
  /-- The leading edge of a start bit on the link receive input (R101). -/
  | lineBusy
  /-- A clean 0xC3 is received (R102). -/
  | startCharacter
  /-- A character of an assembly that does not complete it (R103). -/
  | assemblyCharacter (value : Byte) (framingError : Bool)
  /-- The end of one character time of an idle line (R115). -/
  | backoffSlot
  /-- The own character on the line is read back equal (R117). -/
  | characterReadBack
  /-- A bit boundary of the internal backup timing (R157). -/
  | bitBoundary
  deriving DecidableEq, Repr

end Sys2Proof
end

