-- ==== Sys2Proof/WellFormed.lean ====
section
/-! DEFINITION. Which commands name their own row of the table: a row whose summary confines an operand is ill-formed outside
that range. -/

namespace Sys2Proof

/-- The command codes of the site port (chapter Format Tables, Site port codes). -/
def knownCommandCodes : List Byte := [0x01, 0x02, 0x03, 0x04, 0x05, 0x10, 0x11, 0x20, 0x2F]

/-- A station number, 1..31. -/
def isStation (b : Byte) : Bool := 1 ≤ b.toNat && b.toNat ≤ 31

/-- The operands of a command lie where its row of the table says. -/
def Instr.wellFormed : Instr → Bool
  | .claimLifetimeExpiry origin _ => isStation origin
  | .endingTailExpiry origin _ => isStation origin
  | .peerDeadlineReached station => isStation station
  | .strayCharacter value framingError => value != Config.startCharacter || framingError
  | .badLengthCharacter value _ => value.toNat < 3 || 20 < value.toNat
  | .manualCueUnknown parameter => parameter != 0x01 && parameter != 0x02
  | .unknownCommand code => !knownCommandCodes.contains code
  | .powerOn | .resetPinAssert | .resetPinRelease | .loadComplete _ | .cueSample _ _ _ _ _ | .ageStep => true
  | .localRefresh _ | .releaseRepeat _ | .guardTimerExpiry | .periodicPresence | .downshiftTest | .nameRepeat => true
  | .lineIdle | .assemblyAbandoned | .discardedAssembly _ _ | .claimFrame _ | .releaseFrame _ | .lapseFrame _ => true
  | .presenceFrame _ | .nameFrame _ | .backoffExpiry | .frameSent | .collision _ _ => true
  | .referenceEdge | .referenceGap | .returnComplete | .cellBegin => true
  | .status | .events | .claims | .peers | .cueHistory | .setName _ | .manualCueStart | .manualCueStop => true
  | .clear | .restart | .restartStart | .transactionAbandoned => true
  | .lineBusy | .startCharacter | .assemblyCharacter _ _ | .backoffSlot | .characterReadBack | .bitBoundary => true

end Sys2Proof
end

