-- ==== Sys2Proof/Decode.lean ====
section
/-! DEFINITION. What the part decodes: the bits and bytes of a site port transaction (R171, R172, R189). The opcode table gives no row
any bits, so `decodeTableWord` answers none for every word. -/

namespace Sys2Proof

/-- The command that a table word spells. No row of spec/opcode_table.json carries bits ("fields": [] in every row), so no
word spells one. -/
def decodeTableWord (_nbits _w : Nat) : Option Instr := none

/-- Twelve characters from a list that has them; a missing character cannot occur where this is called. -/
def textOfBytes (bytes : List Byte) : Text :=
  ⟨⟨(List.range 12).map fun i => bytes.getD i 0x20⟩, by simp⟩

/-- The byte of eight bits, the most significant first. -/
def byteOfBits (bits : List Bool) : Byte := bits.foldl BitVec.shiftConcat 0

/-- The whole bytes of the bits clocked in, each most significant bit first; a partial byte at the end is discarded (R171, R188). -/
def bytesOfBits : List Bool → List Byte
  | b7 :: b6 :: b5 :: b4 :: b3 :: b2 :: b1 :: b0 :: rest => byteOfBits [b7, b6, b5, b4, b3, b2, b1, b0] :: bytesOfBits rest
  | _ => []

/-- The command a whole site port transaction brings: `bytes` are the whole bytes the controller sent between the fall and the
rise of chip select (R171). A transaction that ends before the command's last byte is abandoned; the bytes after the
command's last byte are ignored. -/
def decodeTransaction (bytes : List Byte) : Instr :=
  match bytes with
  | [] => .transactionAbandoned
  | code :: rest =>
    if code = 0x01 then .status
    else if code = 0x02 then .events
    else if code = 0x03 then .claims
    else if code = 0x04 then .peers
    else if code = 0x05 then .cueHistory
    else if code = 0x10 then (if rest.length < 12 then .transactionAbandoned else .setName (textOfBytes rest))
    else if code = 0x11 then
      match rest with
      | [] => .transactionAbandoned
      | parameter :: _ =>
        if parameter = 0x01 then .manualCueStart
        else if parameter = 0x02 then .manualCueStop
        else .manualCueUnknown parameter
    else if code = 0x20 then .clear
    else if code = 0x2F then .restart
    else .unknownCommand code

/-- The command that a transaction brings with these bits on the data input, from the fall to the rise of chip select (R171). -/
def decodeBits (bits : List Bool) : Instr := decodeTransaction (bytesOfBits bits)

end Sys2Proof
end

