-- ==== Sys2Proof/Machine/State.lean ====
section
/-! DEFINITION. The state of the SA-220 as plain data, block by block as 00_scope.md lists them, its value after reset, and the
reasons a step can stop. -/

namespace Sys2Proof.Machine

/-! ### Names the spec writes in capitals -/

/-- The Configuration Loader's run state (R183). -/
inductive RunState where
  | starting | running | configFault
  deriving DecidableEq, Repr

/-- The start cause that the STARTED event carries (R179). -/
inductive StartCause where
  | powerOn | resetPin | restart
  deriving DecidableEq, Repr

/-- The class of a claim, in rising order (00_scope.md, Terms). -/
inductive ClaimClass where
  | routine | traffic | urgent | alert
  deriving DecidableEq, Repr

/-- The state of an entry (R5). -/
inductive EntryState where
  | waiting | onAir | ending
  deriving DecidableEq, Repr

/-- The end causes (R5). -/
inductive EndCause where
  | released | expired | lapsed | localEnd | restarted
  deriving DecidableEq, Repr

/-- The actions of an overrun stage (R85). -/
inductive OverrunAction where
  | nothing | notify | demote | localEnd | lapse
  deriving DecidableEq, Repr

/-- The states of a physical cue channel (R65). -/
inductive CueState where
  | idle | run | active | blocked
  deriving DecidableEq, Repr

/-- The states of the manual cue source (R78). -/
inductive ManualState where
  | idle | active
  deriving DecidableEq, Repr

/-- How a recorded cue run ended (chapter Cue Channels, Cue history). -/
inductive RunOutcome where
  | opened | released | localEnd | lapsed | refused | cleared
  deriving DecidableEq, Repr

/-- The line state of the coordination link (R101). -/
inductive LineState where
  | busy | idle
  deriving DecidableEq, Repr

/-- The states of the Link Receiver (R102). -/
inductive ReceiverState where
  | waitIdle | ready | assembling
  deriving DecidableEq, Repr

/-- What this station believes of a peer (R123). -/
inductive PeerState where
  | unknown | present | absent
  deriving DecidableEq, Repr

/-- The quiet levels (R133). -/
inductive QuietLevel where
  | active | quiet1 | quiet2 | quiet3
  deriving DecidableEq, Repr

/-- The states of the Reference Monitor (R163). -/
inductive ReferenceState where
  | locked | lost | returning | lostHeld
  deriving DecidableEq, Repr

/-- The event kinds, in the order of their codes (chapter Format Tables, Event records). -/
inductive EventKind where
  | configFault | started | cleared | referenceLost | referenceBack | claimRefused | tableFull | claimMismatch | onAirChanged
  | overrun | lapseSent | lapseHeard | frameDropped | peerPresent | peerAbsent | configMismatch | duplicateStation | nameApplied
  deriving DecidableEq, Repr

/-! ### Configuration Loader -/

/-- The Configuration Loader's state, and the reset pin. -/
structure Loader where
  /-- R183 -/
  runState : RunState
  /-- R174: 0 when no load has failed in this start, else the cause of R181 -/
  faultCause : Nat
  /-- R179, R184 to R186 -/
  startCause : StartCause
  /-- R186: whether the reset pin is asserted -/
  resetHeld : Bool
  deriving DecidableEq, Repr

/-- One overrun stage; hold 0 means off (R85). -/
structure Stage where
  hold : Nat
  action : OverrunAction
  deriving DecidableEq, Repr

/-- A cue source block as used, after the clamps of R61; the three counts lie in 1..64. -/
structure SourceConfig where
  baseline : Byte
  lowT : Byte
  highT : Byte
  nLo : Nat
  nHi : Nat
  nOff : Nat
  cls : ClaimClass
  areas : Byte
  label : Byte
  deriving DecidableEq, Repr

/-- The values the loader hands to the blocks (R185), clamped (R182). -/
structure Settings where
  station : Byte
  served : Byte
  /-- R166: the auto-return option -/
  autoReturn : Bool
  /-- R180 -/
  fingerprint : Half
  /-- R44: entry `n - 1` is the feed of station `n` -/
  feedMap : Vector (BitVec 4) 31
  /-- R27: W0 to W3 -/
  weightRoutine : Nat
  weightTraffic : Nat
  weightUrgent : Nat
  weightAlert : Nat
  /-- R27: A, s, C, L, D -/
  areaStep : Nat
  ageShift : Nat
  ageCap : Nat
  localBonus : Nat
  demoteStep : Nat
  /-- R42: P -/
  margin : Nat
  /-- R50: G, in seconds -/
  guardTime : Nat
  /-- R13, in seconds -/
  lifetime : Nat
  /-- R15, in seconds -/
  tail : Nat
  /-- R85, R86: stages 1 to 4 -/
  stages : Vector Stage 4
  /-- R61: cue sources 0 to 4 -/
  sources : Vector SourceConfig 5
  deriving DecidableEq, Repr

/-! ### Time bases -/

/-- The two time bases (00_scope.md, Time bases), and which of the acts due at the present moment are still to be taken. -/
structure Clock where
  stationTime : Time
  /-- the count of whole seconds; the spec gives it no width -/
  secondCount : Nat
  /-- increases of station time since the last increase of the second count, 0..49 -/
  phase : Nat
  /-- the present station time is the one at which the second count increased (model's own) -/
  atSecond : Bool
  /-- the age step of the present increase is still to be taken (model's own, R35) -/
  ageStepDue : Bool
  /-- the samples of the present increase of station time are still to be taken (model's own, R63) -/
  sampleDue : Bool
  deriving DecidableEq, Repr

/-! ### Claim Table -/

/-- An entry of the Claim Table (chapter Claims and the Claim Table, The claim entry). -/
structure Entry where
  origin : Byte
  number : Byte
  isLocal : Bool
  source : Option (Fin 5)
  cls : ClaimClass
  areas : Byte
  label : Byte
  candidate : Bool
  state : EntryState
  age : Nat
  lastRefresh : Option Time
  demotions : Nat
  stagesFired : Nat
  score : Nat
  endCause : Option EndCause
  endingSince : Option Time
  repeatsLeft : Option Nat
  refreshCount : Nat
  mismatchReported : Bool
  /-- the second count when the entry was made (model's own: R35 and R21 count from it) -/
  madeSecond : Nat
  /-- the second count at which the next refresh falls due (model's own, local entries, R21) -/
  nextRefresh : Nat
  deriving DecidableEq, Repr

/-- The Claim Table: its entries in order of admission, oldest first (R1), and its numbers and counters (R9, R19, R24). -/
structure ClaimTable where
  entries : List Entry
  nextNumber : Byte
  startMark : Byte
  stale : Nat
  outside : Nat
  deriving DecidableEq, Repr

/-! ### On-Air Selector -/

/-- The On-Air Selector (chapter On-Air Selection, State of the selector). -/
structure Selector where
  /-- R43: origin and claim number of the ON_AIR entry -/
  onAir : Option (Byte × Byte)
  /-- R50: the second count at whose increase the guard expires; `none` when stopped -/
  guard : Option Nat
  /-- R54 -/
  sequence : Byte
  /-- R53: the four feed select lines -/
  feedSelect : BitVec 4
  /-- R53: the feed enable line -/
  feedEnable : Bool
  deriving DecidableEq, Repr

/-! ### Cue Front End -/

/-- A record of a cue history (chapter Cue Channels, Cue history). -/
structure HistoryRecord where
  start : Time
  stop : Option Time
  outcome : RunOutcome
  number : Option Byte
  deriving DecidableEq, Repr

/-- A physical cue channel (chapter Cue Channels, Channel states). -/
structure Channel where
  state : CueState
  runLength : Nat
  highCount : Nat
  offCount : Nat
  runStart : Option Time
  number : Option Byte
  history : List HistoryRecord
  full : Bool
  deriving DecidableEq, Repr

/-- The Cue Front End: the values on the four cue inputs, the four physical channels and the manual cue source. -/
structure CueFrontEnd where
  inputs : Vector Byte 4
  channels : Vector Channel 4
  manual : ManualState
  manualNumber : Option Byte
  deriving DecidableEq, Repr

/-! ### Coordination link -/

/-- What a frame carries besides its origin and start mark (chapter Format Tables, Link frames). -/
inductive FrameBody where
  | presence (level : QuietLevel) (fingerprint : Half)
  | claim (number : Byte) (cls : ClaimClass) (areas label : Byte) (refreshCount : Nat)
  | release (number : Byte) (repeatIndex : Nat)
  | lapse (origin number : Byte)
  | name (version : Half) (text : Text)
  deriving DecidableEq, Repr

/-- A frame held in the outgoing queue (R111), with the attempt number it carries (R115, R116). -/
structure Frame where
  origin : Byte
  mark : Byte
  body : FrameBody
  inTransmission : Bool
  attempt : Nat
  deriving DecidableEq, Repr

/-- The characters of the attempt on the line, which of them is being sent, and whether the attempt stops after it (R117,
R121). The link transmit pin carries character `index` (`State.linkTransmit`). -/
structure Attempt where
  chars : List Byte
  index : Nat
  stopping : Bool
  deriving DecidableEq, Repr

/-- The Link Transmitter. -/
structure Transmitter where
  /-- R111: the head first -/
  queue : List Frame
  /-- R115: the head's backoff count -/
  backoff : Option Nat
  /-- R113 -/
  renewal : Bool
  /-- R117: the attempt whose characters are on the line -/
  sending : Option Attempt
  /-- R100: the driver enable pin -/
  driverEnable : Bool
  deriving DecidableEq, Repr

/-- The eleven global link counters (R110), in the order of the status record. -/
structure LinkCounters where
  framesAccepted : Nat
  framesSent : Nat
  stray : Nat
  truncated : Nat
  framing : Nat
  badCrc : Nat
  unknownKind : Nat
  malformed : Nat
  duplicateStation : Nat
  collisions : Nat
  framesDropped : Nat
  deriving DecidableEq, Repr

/-- The Link Receiver. -/
structure Receiver where
  /-- R101 -/
  line : LineState
  /-- R102 -/
  state : ReceiverState
  /-- R103: the length character of the assembly, once taken -/
  length : Option Byte
  /-- R103: the characters stored after the length character -/
  buffer : List Byte
  /-- R103: the framing mark of the assembly -/
  framing : Bool
  /-- R106: every character of the assembly so far was sent by the own transmitter and read back equal -/
  own : Bool
  /-- R110 -/
  counters : LinkCounters
  /-- R107: the second count at which the last DUPLICATE_STATION was posted -/
  lastDuplicate : Option Nat
  deriving DecidableEq, Repr

/-! ### Peers and presence -/

/-- One entry of the Peer Table (chapter Peers, The peer table). -/
structure Peer where
  state : PeerState
  level : QuietLevel
  mark : Option Byte
  lastHeard : Option Time
  deadline : Option Time
  lastEnded : Option Byte
  fingerprint : Option Half
  fingerprintMatch : Option Bool
  framesHeard : Nat
  absences : Nat
  deriving DecidableEq, Repr

/-- The Presence Scheduler (R133). -/
structure Presence where
  level : QuietLevel
  downshiftTimer : Nat
  presenceTimer : Nat
  /-- the downshift test of the present increase is still to be made (model's own, R135) -/
  downshiftDue : Bool
  /-- the periodic offer that falls at the present increase is still to be made although a downshift has set the presence timer
  to 0 (model's own, R137) -/
  periodicDue : Bool := false
  deriving DecidableEq, Repr

/-! ### Names, cells, reference, site port -/

/-- A name record (chapter Programme Name, The Name Store). -/
structure NameRecord where
  text : Text
  version : Half
  origin : Byte
  deriving DecidableEq, Repr

/-- The Name Store. -/
structure NameStore where
  applied : NameRecord
  pendingName : Option NameRecord
  labels : Vector Text 7
  labelSwap : Bool
  repeatTimer : Nat
  deriving DecidableEq, Repr

/-- The Cell Generator (R158), with the cell on the data line and its output pins. -/
structure CellGenerator where
  position : Fin 6
  burst : Nat
  displayText : Text
  /-- the contents of the cell in progress, fixed as it began (R153) -/
  cell : BitVec 40
  /-- the bit of the cell in progress, 0..39; `none` from a start to the first cell -/
  bit : Option Nat
  /-- a cell boundary has been reached and its cell is still to begin (model's own, R159) -/
  boundaryDue : Bool
  /-- R157: the data line -/
  dataLine : Bool
  /-- R157: the bit clock output -/
  bitClock : Bool
  deriving DecidableEq, Repr

/-- The Reference Monitor (chapter The Cell Stream, The Reference Monitor). -/
structure ReferenceMonitor where
  state : ReferenceState
  gapTimer : Nat
  present : Bool
  stableTimer : Nat
  returnDue : Bool
  releaseMark : Bool
  phaseCount : Fin 4
  backupSeconds : Nat
  /-- the switch has been taken and the edge that begins the next cell has not come yet (R167) -/
  awaitingEdge : Bool
  deriving DecidableEq, Repr

/-- An event record (R176). -/
structure EventRecord where
  kind : EventKind
  time : Time
  first : Byte
  second : Byte
  third : Byte
  deriving DecidableEq, Repr

/-- The Site Port: the event queue, what the last transaction returned, and a RESTART whose chip select is still to rise. -/
structure SitePort where
  /-- R176: oldest first -/
  events : List EventRecord
  overflow : Bool
  /-- R171: the reply byte and the data of the last transaction; empty when the data output rests at 0 -/
  output : List Byte
  /-- R186: RESTART has been taken and chip select has not risen yet -/
  restartDue : Bool
  deriving DecidableEq, Repr

/-- The state of the part. -/
structure State where
  /-- the commands that wait, first in, first out -/
  pending : List Instr
  loader : Loader
  clock : Clock
  settings : Settings
  claims : ClaimTable
  selector : Selector
  cues : CueFrontEnd
  tx : Transmitter
  rx : Receiver
  peers : Vector Peer 31
  presence : Presence
  names : NameStore
  cells : CellGenerator
  reference : ReferenceMonitor
  port : SitePort
  /-- how many values have been drawn from the random source (model's own) -/
  draws : Nat
  deriving DecidableEq, Repr

/-- Why the part would stop. The spec names no condition that stops it, so this type has no member. -/
inductive Fault where
  deriving DecidableEq, Repr

/-- Why a command has no outcome. -/
inductive Refusal where
  /-- Raised by `exec`'s arm of a command that has no meaning yet; safe, since nothing then follows. No arm raises it. -/
  | notModelled (mnemonic : String)
  deriving DecidableEq, Repr

/-! ### Writing one block -/

namespace State

/-- Write the queue of waiting commands. -/
def setPending (s : State) (x : List Instr) : State := { s with pending := x }
/-- Write the Configuration Loader's state. -/
def setLoader (s : State) (x : Loader) : State := { s with loader := x }
/-- Write the time bases. -/
def setClock (s : State) (x : Clock) : State := { s with clock := x }
/-- Write the settings. -/
def setSettings (s : State) (x : Settings) : State := { s with settings := x }
/-- Write the Claim Table. -/
def setClaims (s : State) (x : ClaimTable) : State := { s with claims := x }
/-- Write the On-Air Selector. -/
def setSelector (s : State) (x : Selector) : State := { s with selector := x }
/-- Write the Cue Front End. -/
def setCues (s : State) (x : CueFrontEnd) : State := { s with cues := x }
/-- Write the Link Transmitter. -/
def setTx (s : State) (x : Transmitter) : State := { s with tx := x }
/-- Write the Link Receiver. -/
def setRx (s : State) (x : Receiver) : State := { s with rx := x }
/-- Write the Peer Table. -/
def setPeers (s : State) (x : Vector Peer 31) : State := { s with peers := x }
/-- Write the Presence Scheduler. -/
def setPresence (s : State) (x : Presence) : State := { s with presence := x }
/-- Write the Name Store. -/
def setNames (s : State) (x : NameStore) : State := { s with names := x }
/-- Write the Cell Generator. -/
def setCells (s : State) (x : CellGenerator) : State := { s with cells := x }
/-- Write the Reference Monitor. -/
def setReference (s : State) (x : ReferenceMonitor) : State := { s with reference := x }
/-- Write the Site Port. -/
def setPort (s : State) (x : SitePort) : State := { s with port := x }
/-- Write the count of values drawn. -/
def setDraws (s : State) (x : Nat) : State := { s with draws := x }

end State

/-! ### The state after reset -/

/-- Twelve spaces, the start value of every text (R142, R158). -/
def spaces : Text := Vector.replicate 12 0x20

/-- A peer entry's start values (R123). -/
def peerAtStart : Peer :=
  { state := .unknown, level := .active, mark := none, lastHeard := none, deadline := none, lastEnded := none,
    fingerprint := none, fingerprintMatch := none, framesHeard := 0, absences := 0 }

/-- A physical channel's start values (R65). -/
def channelAtStart : Channel :=
  { state := .idle, runLength := 0, highCount := 0, offCount := 0, runStart := none, number := none, history := [], full := false }

/-- The link counters at a start (R110). -/
def countersAtStart : LinkCounters :=
  { framesAccepted := 0, framesSent := 0, stray := 0, truncated := 0, framing := 0, badCrc := 0, unknownKind := 0, malformed := 0,
    duplicateStation := 0, collisions := 0, framesDropped := 0 }

/-- A cue source block before any image is loaded (DESIGN CHOICE, notes/assumptions/2.md). -/
def sourceAtStart : SourceConfig :=
  { baseline := 0, lowT := 0, highT := 0, nLo := 1, nHi := 1, nOff := 1, cls := .routine, areas := 0, label := 0 }

/-- The settings before any image is loaded (DESIGN CHOICE, notes/assumptions/2.md): the holds 0 and the station number 0 of
R174, and zero in every other. -/
def settingsAtStart : Settings :=
  { station := 0, served := 0, autoReturn := false, fingerprint := 0, feedMap := Vector.replicate 31 0, weightRoutine := 0,
    weightTraffic := 0, weightUrgent := 0, weightAlert := 0, areaStep := 0, ageShift := 0, ageCap := 0, localBonus := 0,
    demoteStep := 0, margin := 0, guardTime := 0, lifetime := 0, tail := 0,
    stages := Vector.replicate 4 { hold := 0, action := .nothing }, sources := Vector.replicate 5 sourceAtStart }

/-- The machine right after power-on (R184): the run state is STARTING and every block holds its start values. The start mark,
which the spec draws from the random source, is 0 here (DESIGN CHOICE, notes/assumptions/2.md). -/
def State.reset : State :=
  { pending := []
    loader := { runState := .starting, faultCause := 0, startCause := .powerOn, resetHeld := false }
    clock := { stationTime := 0, secondCount := 0, phase := 0, atSecond := false, ageStepDue := false, sampleDue := false }
    settings := settingsAtStart
    claims := { entries := [], nextNumber := 0, startMark := 0, stale := 0, outside := 0 }
    selector := { onAir := none, guard := none, sequence := 0, feedSelect := 0, feedEnable := false }
    cues := { inputs := Vector.replicate 4 0, channels := Vector.replicate 4 channelAtStart, manual := .idle, manualNumber := none }
    tx := { queue := [], backoff := none, renewal := false, sending := none, driverEnable := false }
    rx := { line := .busy, state := .waitIdle, length := none, buffer := [], framing := false, own := false,
            counters := countersAtStart, lastDuplicate := none }
    peers := Vector.replicate 31 peerAtStart
    presence := { level := .active, downshiftTimer := 0, presenceTimer := 0, downshiftDue := false }
    names := { applied := { text := spaces, version := 0, origin := 0 }, pendingName := none,
               labels := Vector.replicate 7 spaces, labelSwap := false, repeatTimer := 0 }
    cells := { position := 0, burst := 0, displayText := spaces, cell := 0, bit := none, boundaryDue := false, dataLine := false,
               bitClock := false }
    reference := { state := .locked, gapTimer := 0, present := true, stableTimer := 0, returnDue := false, releaseMark := false,
                   phaseCount := 0, backupSeconds := 0, awaitingEdge := false }
    port := { events := [], overflow := false, output := [], restartDue := false }
    draws := 0 }

end Sys2Proof.Machine
end

