-- ==== Sys2Proof/Machine/Operands.lean ====
section
/-! DEFINITION. The byte forms the part reads and writes: byte and bit order (R188, R100), the two CRCs (R105, R153), the codes and layouts of
the chapter Format Tables, link frames, the configuration image and its clamps (R180 to R182, R86), and texts (R141). -/

namespace Sys2Proof.Machine

/-! ### Bytes, most significant first (R188) -/

/-- The high byte of a 16-bit value. -/
def hiByte (h : Half) : Byte := h.extractLsb' 8 8
/-- The low byte of a 16-bit value. -/
def loByte (h : Half) : Byte := h.extractLsb' 0 8
/-- A 16-bit value from its high and its low byte. -/
def halfOf (hi lo : Byte) : Half := hi ++ lo
/-- A 16-bit value as two bytes, high byte first (R188). -/
def halfBytes (h : Half) : List Byte := [hiByte h, loByte h]
/-- A count as a 16-bit field of a record (R188). -/
def countBytes (n : Nat) : List Byte := halfBytes (BitVec.ofNat 16 n)
/-- A count as a byte of a record (R188). -/
def countByte (n : Nat) : Byte := BitVec.ofNat 8 n
/-- A station time as four bytes, t3 to t0 (R188). -/
def timeBytes (t : Time) : List Byte :=
  [t.extractLsb' 24 8, t.extractLsb' 16 8, t.extractLsb' 8 8, t.extractLsb' 0 8]
/-- A yes or no as the byte of a record: 1 or 0. -/
def flagByte (b : Bool) : Byte := if b then 1 else 0
/-- Byte `i` of a list of bytes; what is called with lies inside. -/
def byteAt (bytes : List Byte) (i : Nat) : Byte := bytes.getD i 0

/-! ### The bits of a link character (R100, R188)

A level of the link is a Bool: `true` for the rest level and for a data bit 1, `false` for the level opposite to rest. (PRESUMED,
notes/assumptions/22.md.) -/

/-- R100: the levels of a character, bit time by bit time: a start bit opposite to rest, the data bits with the least significant
first, a stop bit at rest. -/
def characterLevels (c : Byte) : List Bool := false :: (List.range 8).map c.getLsbD ++ [true]

/-- R100: the character read from the levels sampled in the middle of its ten bit times, and its framing error: a stop bit away from
rest. -/
def characterOf (levels : List Bool) : Byte × Bool :=
  (byteOfBits ((levels.drop 1).take 8).reverse, !levels.getD 9 true)

/-! ### The two CRCs -/

/-- One bit of the link CRC: the bit against the top bit, a shift, and 0x1021 where they differ (R105). -/
def crc16Bit (register : Half) (bit : Bool) : Half :=
  if register.msb != bit then (register <<< 1) ^^^ 0x1021 else register <<< 1

/-- One character of the link CRC, its bits from the most significant (R105). -/
def crc16Byte (register : Half) (character : Byte) : Half :=
  (List.range 8).foldl (fun r i => crc16Bit r (character.getMsbD i)) register

/-- The CRC-16 of R105: from 0xFFFF over the characters in order, without inversion. -/
def crc16 (bytes : List Byte) : Half := bytes.foldl crc16Byte 0xFFFF

/-- One bit of the cell CRC (R153). -/
def crc8Bit (register : Byte) (bit : Bool) : Byte :=
  if register.msb != bit then (register <<< 1) ^^^ 0x07 else register <<< 1

/-- One byte of the cell CRC (R153). -/
def crc8Byte (register : Byte) (byte : Byte) : Byte :=
  (List.range 8).foldl (fun r i => crc8Bit r (byte.getMsbD i)) register

/-- The CRC-8 of R153: from 0x00 over the bytes in order, without inversion. -/
def crc8 (bytes : List Byte) : Byte := bytes.foldl crc8Byte 0x00

/-! ### Codes (chapter Format Tables) -/

def RunState.code : RunState → Byte
  | .starting => 0 | .running => 1 | .configFault => 2

/-- R179: the start cause byte of STARTED. -/
def StartCause.code : StartCause → Byte
  | .powerOn => 0 | .resetPin => 1 | .restart => 2

/-- The rank of a class, rising, which is also its code. -/
def ClaimClass.rank : ClaimClass → Nat
  | .routine => 0 | .traffic => 1 | .urgent => 2 | .alert => 3

def ClaimClass.code (c : ClaimClass) : Byte := BitVec.ofNat 8 c.rank

/-- The class of a code; above 3 there is none (R6). -/
def classOfCode (b : Byte) : Option ClaimClass :=
  if b = 0 then some .routine else if b = 1 then some .traffic else if b = 2 then some .urgent
  else if b = 3 then some .alert else none

def EntryState.code : EntryState → Byte
  | .waiting => 0 | .onAir => 1 | .ending => 2

def EndCause.code : EndCause → Byte
  | .released => 0 | .expired => 1 | .lapsed => 2 | .localEnd => 3 | .restarted => 4

def CueState.code : CueState → Byte
  | .idle => 0 | .run => 1 | .active => 2 | .blocked => 3

def RunOutcome.code : RunOutcome → Byte
  | .opened => 0 | .released => 1 | .localEnd => 2 | .lapsed => 3 | .refused => 4 | .cleared => 5

def PeerState.code : PeerState → Byte
  | .unknown => 0 | .present => 1 | .absent => 2

def QuietLevel.code : QuietLevel → Byte
  | .active => 0 | .quiet1 => 1 | .quiet2 => 2 | .quiet3 => 3

/-- The quiet level of a code; above 3 there is none (R127). -/
def levelOfCode (b : Byte) : Option QuietLevel :=
  if b = 0 then some .active else if b = 1 then some .quiet1 else if b = 2 then some .quiet2
  else if b = 3 then some .quiet3 else none

def ReferenceState.code : ReferenceState → Byte
  | .locked => 0 | .lost => 1 | .returning => 2 | .lostHeld => 3

/-- The event codes 1..18. -/
def EventKind.code : EventKind → Byte
  | .configFault => 1 | .started => 2 | .cleared => 3 | .referenceLost => 4 | .referenceBack => 5 | .claimRefused => 6
  | .tableFull => 7 | .claimMismatch => 8 | .onAirChanged => 9 | .overrun => 10 | .lapseSent => 11 | .lapseHeard => 12
  | .frameDropped => 13 | .peerPresent => 14 | .peerAbsent => 15 | .configMismatch => 16 | .duplicateStation => 17
  | .nameApplied => 18

/-- The action of an overrun action byte; any byte above 4 is NONE (R85). -/
def actionOfCode (b : Byte) : OverrunAction :=
  if b = 1 then .notify else if b = 2 then .demote else if b = 3 then .localEnd else if b = 4 then .lapse else .nothing

/-! ### Texts (R141) -/

/-- A character outside 0x20..0x7E becomes 0x20 (R141). -/
def printable (c : Byte) : Byte := if 0x20 ≤ c.toNat ∧ c.toNat ≤ 0x7E then c else 0x20

/-- Twelve characters from position `at` of a list of bytes, as they stand. -/
def textAt (bytes : List Byte) (offset : Nat) : Text :=
  ⟨⟨(List.range 12).map fun i => byteAt bytes (offset + i)⟩, by simp⟩

/-- The replacement of R141, byte by byte. -/
def printableText (t : Text) : Text := ⟨⟨t.toList.map printable⟩, by simp⟩

/-! ### Link frames -/

/-- The kind code of a frame (chapter Format Tables, Link frames). -/
def FrameBody.kindCode : FrameBody → Byte
  | .presence _ _ => 1 | .claim _ _ _ _ _ => 2 | .release _ _ => 3 | .lapse _ _ => 4 | .name _ _ => 5

/-- The rank of a frame, by its kind (R111). -/
def FrameBody.rank : FrameBody → Nat
  | .release _ _ => 0 | .lapse _ _ => 0 | .claim _ _ _ _ _ => 1 | .name _ _ => 2 | .presence _ _ => 3

/-- The payload bytes of a frame, from offset 5 (chapter Format Tables, Link frames). -/
def FrameBody.payload : FrameBody → List Byte
  | .presence level fingerprint => level.code :: halfBytes fingerprint
  | .claim number cls areas label k => [number, cls.code, areas, label, countByte k]
  | .release number index => [number, countByte index]
  | .lapse origin number => [origin, number]
  | .name version text => halfBytes version ++ text.toList

/-- The length character *L*: the characters from the kind to the last payload character. -/
def Frame.lengthByte (f : Frame) : Byte := countByte (3 + f.body.payload.length)

/-- The characters the CRC covers: length, kind, origin, start mark and payload (R105). -/
def Frame.covered (f : Frame) : List Byte :=
  [f.lengthByte, f.body.kindCode, f.origin, f.mark] ++ f.body.payload

/-- The characters of one attempt: start character, covered characters, CRC high byte first (R117). -/
def Frame.characters (f : Frame) : List Byte :=
  Config.startCharacter :: f.covered ++ halfBytes (crc16 f.covered)

/-- The length each kind code has; none for a code outside 1..5 (R104). -/
def lengthOfKind (kind : Byte) : Option Nat :=
  if kind = 1 then some 6 else if kind = 2 then some 8 else if kind = 3 then some 5 else if kind = 4 then some 5
  else if kind = 5 then some 17 else none

/-- What the receiver makes of a complete assembly (R104): the counter of the first check that fails, an own number, or the
frame. -/
inductive AssemblyVerdict where
  | framing | badCrc | unknownKind | malformed
  | duplicate (kind mark : Byte)
  | accepted (kind origin mark : Byte) (payload : List Byte)
  deriving DecidableEq, Repr

/-- The six checks of R104, in order, on the length character and the *L* + 2 characters stored after it. -/
def judgeAssembly (ownStation length : Byte) (buffer : List Byte) (framing : Bool) : AssemblyVerdict :=
  let body := buffer.take length.toNat
  let kind := byteAt buffer 0
  let origin := byteAt buffer 1
  let mark := byteAt buffer 2
  if framing then .framing
  else if crc16 (length :: body) ≠ halfOf (byteAt buffer length.toNat) (byteAt buffer (length.toNat + 1)) then .badCrc
  else match lengthOfKind kind with
    | none => .unknownKind
    | some n =>
      if length.toNat ≠ n then .malformed
      else if !isStation origin then .malformed
      else if origin = ownStation then .duplicate kind mark
      else .accepted kind origin mark (body.drop 3)

/-! ### The configuration image (chapter Format Tables; R180 to R182) -/

/-- The CRC of the first 201 bytes (R180). -/
def imageCrc (image : List Byte) : Half := crc16 (image.take 201)

/-- The CRC stored in the last two bytes, high byte first (R180). -/
def imageStoredCrc (image : List Byte) : Half := halfOf (byteAt image 201) (byteAt image 202)

/-- The fingerprint: the CRC over the shared section, offsets 35 to 59, as stored (R180). -/
def imageFingerprint (image : List Byte) : Half := crc16 ((image.drop 35).take 25)

/-- The first check of R181 that fails: its fault cause and the failing value of the event (R179). -/
def imageFault (image : List Byte) : Option (Nat × Byte) :=
  if imageCrc image ≠ imageStoredCrc image then some (1, 0)
  else if byteAt image 0 ≠ Config.formatMark then some (2, byteAt image 0)
  else if !isStation (byteAt image 1) then some (3, byteAt image 1)
  else if byteAt image 2 = 0 then some (4, 0)
  else none

/-- A byte held at most to `top` (R182). -/
def clampTop (b : Byte) (top : Nat) : Nat := min b.toNat top

/-- A byte brought into `low..top` (R182). -/
def clampBoth (b : Byte) (low top : Nat) : Nat := max low (min b.toNat top)

/-- A feed map byte; above 15 it is read as 0 (R44, R182). -/
def feedOfByte (b : Byte) : BitVec 4 := if b.toNat ≤ 15 then b.extractLsb' 0 4 else 0

/-- The clamp of R86: going through the stages in order, a stage that is on has its hold raised to the largest hold, `highest`, of
the stages before it that are on; a stage that is off stays off. -/
def raiseHolds (highest : Nat) : List Stage → List Stage
  | [] => []
  | st :: rest =>
    if st.hold = 0 then st :: raiseHolds highest rest
    else { st with hold := max highest st.hold } :: raiseHolds (max highest st.hold) rest

/-- `raiseHolds` keeps the number of stages. -/
theorem raiseHolds_length (stages : List Stage) (highest : Nat) : (raiseHolds highest stages).length = stages.length := by
  induction stages generalizing highest with
  | nil => rfl
  | cons st rest ih => unfold raiseHolds; split <;> simp [ih]

/-- The four stages as the image stores them: holds at 48, actions at 56. -/
def storedStages (image : List Byte) : List Stage :=
  (List.range 4).map fun i =>
    { hold := (halfOf (byteAt image (48 + 2 * i)) (byteAt image (49 + 2 * i))).toNat, action := actionOfCode (byteAt image (56 + i)) }

/-- The four stages in use (R85, R86). -/
def imageStages (image : List Byte) : Vector Stage 4 :=
  ⟨⟨raiseHolds 0 (storedStages image)⟩, by simp [raiseHolds_length, storedStages]⟩

/-- A count byte: its low 6 bits plus 1 (R61). -/
def countOfByte (b : Byte) : Nat := (b.extractLsb' 0 6).toNat + 1

/-- A stored class; above 3 it is ALERT (R61). -/
def clampedClass (b : Byte) : ClaimClass := (classOfCode b).getD .alert

/-- A stored label code; above 7 it is 0 (R61). -/
def clampedLabel (b : Byte) : Byte := if b.toNat ≤ 7 then b else 0

/-- The block of cue source `c`, at 60 + 9c (R61). -/
def imageSource (image : List Byte) (c : Nat) : SourceConfig :=
  let o := 60 + 9 * c
  { baseline := byteAt image o, lowT := byteAt image (o + 1), highT := byteAt image (o + 2),
    nLo := countOfByte (byteAt image (o + 3)), nHi := countOfByte (byteAt image (o + 4)), nOff := countOfByte (byteAt image (o + 5)),
    cls := clampedClass (byteAt image (o + 6)), areas := byteAt image (o + 7), label := clampedLabel (byteAt image (o + 8)) }

/-- The settings an accepted image gives, clamped (R182, R185). -/
def imageSettings (image : List Byte) : Settings :=
  { station := byteAt image 1
    served := byteAt image 2
    autoReturn := (byteAt image 3).getLsbD 0
    fingerprint := imageFingerprint image
    feedMap := ⟨⟨(List.range 31).map fun i => feedOfByte (byteAt image (4 + i))⟩, by simp⟩
    weightRoutine := (byteAt image 35).toNat
    weightTraffic := (byteAt image 36).toNat
    weightUrgent := (byteAt image 37).toNat
    weightAlert := (byteAt image 38).toNat
    areaStep := clampTop (byteAt image 39) 31
    ageShift := (byteAt image 40).toNat
    ageCap := (byteAt image 41).toNat
    localBonus := clampTop (byteAt image 42) 63
    demoteStep := clampTop (byteAt image 43) 127
    margin := (byteAt image 44).toNat
    guardTime := clampTop (byteAt image 45) 10
    lifetime := clampBoth (byteAt image 46) 3 30
    tail := clampBoth (byteAt image 47) 2 60
    stages := imageStages image
    sources := ⟨⟨(List.range 5).map (imageSource image)⟩, by simp⟩ }

/-- The label swap option (R149). -/
def imageLabelSwap (image : List Byte) : Bool := (byteAt image 3).getLsbD 1

/-- The seven labels, with the replacement of R141. -/
def imageLabels (image : List Byte) : Vector Text 7 :=
  ⟨⟨(List.range 7).map fun i => printableText (textAt image (105 + 12 * i))⟩, by simp⟩

/-- The initial name, with the replacement of R141. -/
def imageName (image : List Byte) : Text := printableText (textAt image 189)

end Sys2Proof.Machine
end

