-- ==== Sys2Proof/Machine/Flags.lean ====
section
/-! DEFINITION. The tests and computed values the rules rest on: saturating arithmetic, serial comparison (R3, R143), the score
(R28 to R33) and the orderings over it (R39, R40, R42, R47), elapsed seconds, and what is due. -/

namespace Sys2Proof.Machine

/-! ### Saturating quantities -/

/-- The saturating addition of R29, on 0..255. -/
def satAdd (a b : Nat) : Nat := min (a + b) 255

/-- The saturating subtraction of R29, with a floor of 0. -/
def satSub (a b : Nat) : Nat := a - b

/-- One more, stopping at `top` (00_scope.md, Saturating and wrapping quantities). -/
def satInc (top n : Nat) : Nat := if n < top then n + 1 else top

/-! ### Serial comparison -/

/-- R3: `a` is newer than `b`. -/
def newerNumber (a b : Byte) : Bool := 1 ≤ (a - b).toNat && (a - b).toNat ≤ 127

/-- R3: `a` is older than `b`. -/
def olderNumber (a b : Byte) : Bool := 129 ≤ (a - b).toNat

/-- R3: neither is newer. -/
def notComparable (a b : Byte) : Bool := (a - b).toNat == 128

/-- R9: a number equal to or older than the last ended number is stale. -/
def staleNumber (number last : Byte) : Bool := number == last || olderNumber number last

/-- R14, R126: the last ended number after `number` is offered to it. -/
def nextLastEnded (held : Option Byte) (number : Byte) : Option Byte :=
  match held with
  | none => some number
  | some last => if newerNumber number last || notComparable number last then some number else some last

/-- R143: name `n` (of origin 1..31) is newer than the newest known name `k`. -/
def newerName (n k : NameRecord) : Bool :=
  k.origin == 0
  || (1 ≤ (n.version - k.version).toNat && (n.version - k.version).toNat ≤ 32767)
  || (n.version == k.version && n.origin.toNat < k.origin.toNat)

/-! ### Entries -/

/-- An entry's identity (R1). -/
def Entry.key (e : Entry) : Byte × Byte := (e.origin, e.number)

/-- WAITING or ON_AIR. -/
def Entry.live (e : Entry) : Bool := e.state != .ending

/-- In ENDING with cause RESTARTED: counts as absent for R8 to R12 (R7). -/
def Entry.countsAsAbsent (e : Entry) : Bool := e.state == .ending && e.endCause == some .restarted

/-- The number of areas in both sets (R28). -/
def sharedAreas (a b : Byte) : Nat := ((List.range 8).filter fun i => (a &&& b).getLsbD i).length

/-- The feed of a station (R44); station 0 and stations above 31 have none. -/
def Settings.feedOf (cfg : Settings) (station : Byte) : BitVec 4 :=
  if isStation station then cfg.feedMap.toList.getD (station.toNat - 1) 0 else 0

/-- R4: candidacy of a claim with these areas and this origin. -/
def Settings.isCandidate (cfg : Settings) (areas origin : Byte) : Bool :=
  (areas &&& cfg.served) != 0 && cfg.feedOf origin != 0

/-! ### The score -/

/-- The class weight (R30). -/
def Settings.weight (cfg : Settings) : ClaimClass → Nat
  | .routine => cfg.weightRoutine
  | .traffic => cfg.weightTraffic
  | .urgent => cfg.weightUrgent
  | .alert => cfg.weightAlert

/-- R30: the base. -/
def Settings.base (cfg : Settings) (cls : ClaimClass) (m : Nat) : Nat := satAdd (cfg.weight cls) (m * cfg.areaStep)

/-- R31: the age bonus. -/
def Settings.ageBonus (cfg : Settings) (age : Nat) : Nat :=
  min (if cfg.ageShift ≤ 15 then age >>> cfg.ageShift else 0) cfg.ageCap

/-- R33: the demotion penalty. -/
def Settings.penalty (cfg : Settings) (demotions : Nat) : Nat := min (demotions * cfg.demoteStep) 255

/-- The four stages of the score (R28 to R33) from its five inputs. -/
def Settings.score (cfg : Settings) (cls : ClaimClass) (m age : Nat) (isLocal : Bool) (demotions : Nat) : Nat :=
  let second := satAdd (cfg.base cls m) (cfg.ageBonus age)
  let third := if isLocal then satAdd second cfg.localBonus else second
  satSub third (cfg.penalty demotions)

/-- The score of an entry from its present fields (R28). -/
def Settings.scoreOf (cfg : Settings) (e : Entry) : Nat :=
  cfg.score e.cls (sharedAreas e.areas cfg.served) e.age e.isLocal e.demotions

/-- R42: the preemption threshold of the ON_AIR entry. -/
def Settings.threshold (cfg : Settings) (y : Entry) : Nat := satAdd y.score cfg.margin

/-- R47: X passes the preemption test against Y. -/
def Settings.preempts (cfg : Settings) (x y : Entry) : Bool :=
  (x.cls == .alert && y.cls != .alert) || cfg.threshold y < x.score

/-! ### Orderings -/

/-- R39: X precedes Y. -/
def precedes (x y : Entry) : Bool :=
  if x.score ≠ y.score then y.score < x.score
  else if x.cls.rank ≠ y.cls.rank then y.cls.rank < x.cls.rank
  else if x.origin ≠ y.origin then x.origin.toNat < y.origin.toNat
  else if olderNumber x.number y.number then true
  else notComparable x.number y.number && x.number.toNat < y.number.toNat

/-- The entries for which `f` is largest. -/
def keepLargest (f : Entry → Nat) (l : List Entry) : List Entry :=
  let top := l.foldl (fun m e => max m (f e)) 0
  l.filter fun e => f e == top

/-- The entries for which `f` (at most 255) is smallest. -/
def keepSmallest (f : Entry → Nat) (l : List Entry) : List Entry :=
  let low := l.foldl (fun m e => min m (f e)) 255
  l.filter fun e => f e == low

/-- R40: the best entry of a set: highest score, then highest class, then lowest origin; of several left, the one whose number is
older than every other's, or else the lowest number. -/
def best (l : List Entry) : Option Entry :=
  let last := keepSmallest (fun e => e.origin.toNat) (keepLargest (fun e => e.cls.rank) (keepLargest (fun e => e.score) l))
  match last.find? fun e => last.all fun o => o.number == e.number || olderNumber e.number o.number with
  | some e => some e
  | none => (keepSmallest (fun e => e.number.toNat) last).head?

/-- R40: the precedence order: the best, then the best of those left, `fuel` times at most. -/
def precedenceOrder (fuel : Nat) (l : List Entry) : List Entry :=
  match fuel with
  | 0 => []
  | n + 1 =>
    match best l with
    | none => []
    | some e => e :: precedenceOrder n (l.filter fun o => o.key != e.key)

/-! ### Elapsed time -/

/-- The number of increases of the second count after station time `t`, up to now: `phase` is the number of intervals since the
last of them (R13, R15, R22). -/
def Clock.increasesSince (c : Clock) (t : Time) : Nat := ((c.stationTime - t).toNat - c.phase + 49) / 50

/-- R129: the time lies at or before now when the difference is taken modulo 2^32. -/
def Clock.reached (c : Clock) (t : Time) : Bool := (c.stationTime - t).toNat < 2 ^ 31

/-- A station time that lies `seconds` after now. -/
def Clock.after (c : Clock) (seconds : Nat) : Time := c.stationTime + BitVec.ofNat 32 (seconds * Config.intervalsPerSecond)

/-! ### What is due -/

/-- R13: the claim lifetime of a live remote entry has passed. -/
def lifetimePassed (s : State) (e : Entry) : Bool :=
  e.live && !e.isLocal &&
  match e.lastRefresh with
  | none => false
  | some t => s.settings.lifetime ≤ s.clock.increasesSince t

/-- R15: the ending tail of an entry in ENDING has passed. -/
def tailPassed (s : State) (e : Entry) : Bool :=
  !e.live &&
  match e.endingSince with
  | none => false
  | some t => s.settings.tail ≤ s.clock.increasesSince t

/-- R21: a live local entry's refresh is due. -/
def refreshDue (s : State) (e : Entry) : Bool := e.live && e.isLocal && e.nextRefresh ≤ s.clock.secondCount

/-- R22: a local entry in ENDING has a release repeat due. -/
def releaseRepeatDue (s : State) (e : Entry) : Bool :=
  !e.live && e.isLocal &&
  match e.repeatsLeft, e.endingSince with
  | some left, some t => 0 < left && 3 - left ≤ s.clock.increasesSince t
  | _, _ => false

/-- R50: the guard timer expires now. -/
def guardExpired (s : State) : Bool :=
  match s.selector.guard with
  | none => false
  | some e => e ≤ s.clock.secondCount

/-- R129: at an increase of the second count, a PRESENT peer's deadline is reached. -/
def deadlineReached (s : State) (p : Peer) : Bool :=
  s.clock.atSecond && p.state == .present &&
  match p.deadline with
  | none => false
  | some t => s.clock.reached t

/-- The presence period of a level, in seconds (R133). -/
def QuietLevel.period : QuietLevel → Nat
  | .active => 1 | .quiet1 => 4 | .quiet2 => 15 | .quiet3 => 60

/-- The downshift limit of a level, in seconds; QUIET3 has none (R133). -/
def QuietLevel.downshiftLimit : QuietLevel → Option Nat
  | .active => some 10 | .quiet1 => some 50 | .quiet2 => some 540 | .quiet3 => none

/-- One level down (R135). -/
def QuietLevel.down : QuietLevel → QuietLevel
  | .active => .quiet1 | .quiet1 => .quiet2 | .quiet2 => .quiet3 | .quiet3 => .quiet3

/-- R135: the downshift timer stands at the present level's limit. -/
def Presence.atLimit (p : Presence) : Bool :=
  match p.level.downshiftLimit with
  | none => false
  | some limit => limit ≤ p.downshiftTimer

/-- R136, R137: a periodic offer is to be made. -/
def Presence.periodicOfferDue (p : Presence) : Bool := p.level.period ≤ p.presenceTimer || p.periodicDue

/-- R77: some cue source is not IDLE. -/
def CueFrontEnd.busy (c : CueFrontEnd) : Bool := c.manual != .idle || c.channels.toList.any fun ch => ch.state != .idle

/-- R135: a downshift is refused. -/
def downshiftRefused (s : State) : Bool := s.claims.entries.any Entry.live || s.cues.busy

/-! ### Cue samples -/

/-- R64: the net level of a sample. -/
def SourceConfig.net (c : SourceConfig) (v : Byte) : Nat := v.toNat - c.baseline.toNat

/-- R64: the sample is above low. -/
def SourceConfig.aboveLow (c : SourceConfig) (v : Byte) : Bool := c.lowT.toNat < c.net v

/-- R64: the sample is high. -/
def SourceConfig.high (c : SourceConfig) (v : Byte) : Bool := c.highT.toNat < c.net v

/-- R69: the validation test of a run. -/
def SourceConfig.validated (c : SourceConfig) (ch : Channel) : Bool := c.nLo ≤ ch.runLength && c.nHi ≤ ch.highCount

/-! ### Outputs that follow the state -/

/-- R178: the attention output. -/
def State.attention (s : State) : Bool := !s.loader.resetHeld && !s.port.events.isEmpty

/-- The run state is RUNNING and the part is not held in reset. -/
def State.running (s : State) : Bool := s.loader.runState == .running && !s.loader.resetHeld

/-- R154: the backup-timing flag. -/
def State.onBackup (s : State) : Bool := s.reference.state != .locked

end Sys2Proof.Machine
end

