-- ==== Sys2Proof/Machine/Ops.lean ====
section
/-! DEFINITION. The named operations the meanings share: posting an event, offering a frame to the outgoing queue, activity, the
on-air change and the selection, ending and making entries, and the parts of the tables they read and write. -/

namespace Sys2Proof.Machine

/-! ### Outcomes -/

/-- The outcome of a command. -/
abbrev Result := Host.Outcome State Fault Refusal

/-- A command that the part takes in every run state, but not while the reset pin is held (R186). -/
def unlessHeld (f : State → State) (s : State) : Result := .next (if s.loader.resetHeld then s else f s)

/-- A command that has its effect while the run state is RUNNING, and none otherwise. (DESIGN CHOICE, notes/assumptions/4.md.)
-/
def whenRunning (f : State → State) (s : State) : Result := .next (if s.running then f s else s)

/-! ### Site Port events and replies -/

/-- R176: an event joins the queue, or is discarded with the overflow flag set when the queue holds 16 records. -/
def postEvent (kind : EventKind) (first second third : Byte) (s : State) : State :=
  if s.port.events.length < Config.eventCapacity then
    s.setPort { s.port with events := s.port.events ++ [⟨kind, s.clock.stationTime, first, second, third⟩] }
  else s.setPort { s.port with overflow := true }

/-- What the port returns for the transaction: the reply byte and the data (R171). -/
def portReturns (bytes : List Byte) (s : State) : State := s.setPort { s.port with output := bytes }

/-- The reply codes of the site port (chapter Format Tables). -/
inductive Reply where
  | accepted | busy | notActive | refused | unknown
  deriving DecidableEq, Repr

def Reply.code : Reply → Byte
  | .accepted => 0xA0 | .busy => 0xA1 | .notActive => 0xA2 | .refused => 0xA3 | .unknown => 0xA4

/-- A reply byte with no data. -/
def answer (r : Reply) (s : State) : State := portReturns [r.code] s

/-- The port takes transactions: the reset pin is not held, and no RESTART waits for the rise of its chip select (R171, R186). -/
def State.portOpen (s : State) : Bool := !s.loader.resetHeld && !s.port.restartDue

/-- A command at the port: taken when the port is open; otherwise the data output rests at 0 (R171). (DEDUCED,
notes/assumptions/16.md.) -/
def atPort (f : State → State) (s : State) : Result := .next (if s.portOpen then f s else portReturns [] s)

/-- A command that is REFUSED outside RUNNING (R172). -/
def atRunningPort (f : State → State) (s : State) : Result :=
  atPort (fun s => if s.loader.runState = .running then f s else answer .refused s) s

/-! ### Link counters (R110) -/

/-- Apply `f` to the global link counters. -/
def countLink (f : LinkCounters → LinkCounters) (s : State) : State := s.setRx { s.rx with counters := f s.rx.counters }

/-- One more, in a 16-bit saturating counter. -/
def inc16 (n : Nat) : Nat := satInc 65535 n

def countMalformed (s : State) : State := countLink (fun c => { c with malformed := inc16 c.malformed }) s

/-! ### The outgoing queue (R111 to R116) -/

/-- A frame of the own station as it is taken into the queue (R111, R115). -/
def ownFrame (s : State) (body : FrameBody) : Frame :=
  { origin := s.settings.station, mark := s.claims.startMark, body := body, inTransmission := false, attempt := 1 }

/-- Write the outgoing queue. -/
def setQueue (q : List Frame) (s : State) : State := s.setTx { s.tx with queue := q }

/-- R115: the frame that is head draws its backoff count from 0..2^a - 1; an empty queue has none. (DESIGN CHOICE,
notes/assumptions/1.md.) -/
def drawBackoff (s : State) : State :=
  match s.tx.queue with
  | [] => s.setTx { s.tx with backoff := none }
  | f :: _ => (s.setTx { s.tx with backoff := some (Config.random s.draws % 2 ^ f.attempt) }).setDraws (s.draws + 1)

/-- R111: the last position of the frame's rank, behind the frame in transmission. -/
def insertFrame (f : Frame) : List Frame → List Frame
  | [] => [f]
  | g :: q => if g.inTransmission || g.body.rank ≤ f.body.rank then g :: insertFrame f q else f :: g :: q

/-- A frame is placed; when it becomes head it draws its backoff (R115, R116). -/
def placeFrame (f : Frame) (s : State) : State :=
  let q := insertFrame f s.tx.queue
  if q.head? = s.tx.queue.head? then setQueue q s else drawBackoff (setQueue q s)

/-- R114, R119, R122: FRAME_DROPPED is posted and counted. -/
def frameDropped (body : FrameBody) (cause collisions : Byte) (s : State) : State :=
  countLink (fun c => { c with framesDropped := inc16 c.framesDropped }) (postEvent .frameDropped body.kindCode cause collisions s)

/-- R114: the lowest rank (the largest rank number) among the frames not in transmission. -/
def lowestRank (q : List Frame) : Nat := (q.filter fun f => !f.inTransmission).foldl (fun m f => max m f.body.rank) 0

/-- The last frame in queue order of rank `r` that is not in transmission. -/
def lastOfRank (r : Nat) (q : List Frame) : Option Frame := q.reverse.find? fun f => !f.inTransmission && f.body.rank == r

/-- The queue without that frame. -/
def withoutLastOfRank (r : Nat) (q : List Frame) : List Frame :=
  (q.reverse.eraseP fun f => !f.inTransmission && f.body.rank == r).reverse

/-- R111, R114: a frame that is not coalesced is placed, or handled by the full-queue rule. -/
def offerFrame (f : Frame) (s : State) : State :=
  if s.tx.queue.length < Config.queueCapacity then placeFrame f s
  else
    let low := lowestRank s.tx.queue
    if f.body.rank < low then
      match lastOfRank low s.tx.queue with
      | some g => placeFrame f (frameDropped g.body 0 0 (setQueue (withoutLastOfRank low s.tx.queue) s))
      | none => s
    else frameDropped f.body 0 0 s

/-- R112: the frame is a CLAIM for this number and not in transmission. -/
def Frame.isWaitingClaim (number : Byte) (f : Frame) : Bool :=
  match f.body with
  | .claim n _ _ _ _ => n == number && !f.inTransmission
  | _ => false

/-- R112: the refresh count of a CLAIM is replaced. -/
def Frame.withRefreshCount (k : Nat) (f : Frame) : Frame :=
  match f.body with
  | .claim n c a l _ => { f with body := .claim n c a l k }
  | _ => f

def Frame.isPresence (f : Frame) : Bool :=
  match f.body with
  | .presence _ _ => true
  | _ => false

/-- R111 to R114: a frame is offered to the outgoing queue. -/
def offer (body : FrameBody) (s : State) : State :=
  match body with
  | .claim number _ _ _ k =>
    if s.tx.queue.any (Frame.isWaitingClaim number) then
      setQueue (s.tx.queue.map fun f => if f.isWaitingClaim number then f.withRefreshCount k else f) s
    else offerFrame (ownFrame s body) s
  | .presence _ _ =>
    match s.tx.queue.find? Frame.isPresence with
    | none => offerFrame (ownFrame s body) s
    | some held =>
      if held.inTransmission then s.setTx { s.tx with renewal := true }
      else setQueue (s.tx.queue.map fun f => if f.isPresence then { f with body := body } else f) s
  | .release _ _ | .lapse _ _ | .name _ _ => offerFrame (ownFrame s body) s

/-- A PRESENCE with the quiet level held now and the own fingerprint (R113, R136). -/
def ownPresence (s : State) : FrameBody := .presence s.presence.level s.settings.fingerprint

/-- R136: the Presence Scheduler offers a PRESENCE, which sets the presence timer to 0. -/
def offerPresence (s : State) : State :=
  offer (ownPresence s) (s.setPresence { s.presence with presenceTimer := 0 })

/-- R134: activity returns the level to ACTIVE, sets the downshift timer to 0 and offers a PRESENCE; the next periodic offer follows
one full period later (R136). -/
def activity (s : State) : State :=
  offerPresence (s.setPresence { s.presence with level := .active, downshiftTimer := 0, downshiftDue := false, periodicDue := false })

/-! ### Peers -/

/-- The entry of a station in the Peer Table; 0 and numbers above 31 have none. -/
def State.peer (s : State) (p : Byte) : Peer := if isStation p then s.peers.toList.getD (p.toNat - 1) peerAtStart else peerAtStart

/-- Change the entry of a station. -/
def updatePeer (p : Byte) (f : Peer → Peer) (s : State) : State :=
  if isStation p then s.setPeers (s.peers.setIfInBounds (p.toNat - 1) (f (s.peer p))) else s

/-- R14, R126: the Claim Table offers a number of this origin to the last ended number. -/
def noteEnded (origin number : Byte) (s : State) : State :=
  updatePeer origin (fun p => { p with lastEnded := nextLastEnded p.lastEnded number }) s

/-! ### Entries and the on-air slot -/

/-- Write the entries of the Claim Table. -/
def setEntries (l : List Entry) (s : State) : State := s.setClaims { s.claims with entries := l }

/-- The entry with this origin and number. -/
def State.entry (s : State) (k : Byte × Byte) : Option Entry := s.claims.entries.find? fun e => e.key == k

/-- Change the entry with this origin and number, where it stands. -/
def updateEntry (k : Byte × Byte) (f : Entry → Entry) (s : State) : State :=
  setEntries (s.claims.entries.map fun e => if e.key == k then f e else e) s

/-- An entry leaves the table and the admission order (R15, R18). -/
def removeEntry (k : Byte × Byte) (s : State) : State := setEntries (s.claims.entries.filter fun e => e.key != k) s

/-- The WAITING candidates, in admission order (R46). -/
def State.waitingCandidates (s : State) : List Entry := s.claims.entries.filter fun e => e.state == .waiting && e.candidate

/-- R46, R47: the best of the WAITING candidates. -/
def State.bestWaiting (s : State) : Option Entry := best s.waitingCandidates

/-- R50: the guard after a change: stopped when G is 0, else to expire at the G-th increase. -/
def guardFrom (s : State) : Option Nat :=
  if s.settings.guardTime = 0 then none else some (s.clock.secondCount + s.settings.guardTime)

/-- R52 to R57: the effects of an on-air change from an entry of origin `old` (0 for none) to `new`. ON_AIR_CHANGED is posted before
the activity, whose offer can post FRAME_DROPPED. (DESIGN CHOICE, notes/assumptions/7.md.) -/
def onAirChange (old : Byte) (new : Option Entry) (s : State) : State :=
  let s := s.setSelector
    { onAir := new.map Entry.key
      guard := guardFrom s
      sequence := s.selector.sequence + 1
      feedSelect := match new with | none => 0 | some e => s.settings.feedOf e.origin
      feedEnable := new.isSome }
  let s := s.setCells { s.cells with burst := 3 }
  let s := match new with
    | none => postEvent .onAirChanged 0 0 old s
    | some e => postEvent .onAirChanged e.origin e.number old s
  activity s

/-- An entry moves to ON_AIR or to WAITING (R48). -/
def setEntryState (k : Byte × Byte) (st : EntryState) (s : State) : State := updateEntry k (fun e => { e with state := st }) s

/-- R46, R51: an empty slot, emptied of an entry of origin `old`, is filled with the best WAITING candidate, if there is one.
`changed` says that the emptying itself is a change, so that one is made to none (R51). -/
def fillSlot (old : Byte) (changed : Bool) (s : State) : State :=
  match s.bestWaiting with
  | some x => onAirChange old (some x) (setEntryState x.key .onAir s)
  | none => if changed then onAirChange old none s else s

/-- R45 to R49: one selection run. -/
def select (s : State) : State :=
  match s.selector.onAir with
  | none => fillSlot 0 false s
  | some k =>
    match s.entry k, s.bestWaiting with
    | some y, some x =>
      if s.settings.preempts x y && s.selector.guard.isNone then
        onAirChange y.origin (some x) (setEntryState x.key .onAir (setEntryState y.key .waiting s))
      else s
    | _, _ => s

/-! ### The cue sources' side of a local claim -/

/-- Change a physical channel. -/
def updateChannel (c : Fin 4) (f : Channel → Channel) (s : State) : State :=
  s.setCues { s.cues with channels := s.cues.channels.set c (f s.cues.channels[c]) }

/-- R82: the open record, if there is one, is closed. -/
def Channel.closeRecord (stop : Time) (outcome : RunOutcome) (ch : Channel) : Channel :=
  { ch with history := ch.history.map fun r => if r.outcome == .opened then { r with stop := some stop, outcome := outcome } else r }

/-- R81, R82: a record is written at the end of the list, or the full mark is set when the list holds 8. -/
def Channel.writeRecord (r : HistoryRecord) (ch : Channel) : Channel :=
  if ch.history.length < Config.historyCapacity then { ch with history := ch.history ++ [r] } else { ch with full := true }

/-- The outcome of a record closed by an ending other than the cue's own (R74). -/
def EndCause.outcome : EndCause → RunOutcome
  | .localEnd => .localEnd
  | .lapsed => .lapsed
  | .released | .expired | .restarted => .released

/-- R74, R80: a source is told that its claim ended. RELEASED is the answer to its own request and moves nothing. -/
def cueNotice (source : Option (Fin 5)) (cause : EndCause) (s : State) : State :=
  match source with
  | none => s
  | some c =>
    if cause = .released then s
    else if h : c.val < 4 then
      if s.cues.channels[c.val].state = .active then
        updateChannel ⟨c.val, h⟩ (fun ch =>
          { ch.closeRecord s.clock.stationTime cause.outcome with state := .blocked, number := none, offCount := 0 }) s
      else s
    else s.setCues { s.cues with manual := .idle, manualNumber := none }

/-! ### Ending and making entries -/

/-- R14 (1, 3): the fields of an entry that moves to ENDING; a local one has two release repeats left (R22). -/
def Entry.ended (cause : EndCause) (now : Time) (e : Entry) : Entry :=
  { e with state := .ending, endCause := some cause, endingSince := some now,
           repeatsLeft := if e.isLocal then some 2 else none }

/-- R14, R22, R51: a live entry moves to ENDING with this cause, with all its effects; anything else is left as it is. (Order of
the effects: DESIGN CHOICE, notes/assumptions/7.md.) -/
def endEntry (k : Byte × Byte) (cause : EndCause) (s : State) : State :=
  match s.entry k with
  | none => s
  | some e =>
    if !e.live then s
    else
      let s := updateEntry k (Entry.ended cause s.clock.stationTime) s
      let s :=
        if e.isLocal then cueNotice e.source cause (offer (.release e.number 0) s)
        else if cause = .restarted then s
        else noteEnded e.origin e.number s
      let s := activity s
      if e.state = .onAir then fillSlot e.origin true (s.setSelector { s.selector with onAir := none }) else select s

/-- The first live WAITING entry of an origin, in admission order. -/
def firstWaitingOf (origin : Byte) (s : State) : Option Entry :=
  s.claims.entries.find? fun e => e.origin == origin && e.state == .waiting

/-- The WAITING entries of an origin end, one after the other, in admission order. (DEDUCED, notes/assumptions/12.md.) -/
def endWaitingOf (origin : Byte) (cause : EndCause) (fuel : Nat) (s : State) : State :=
  match fuel with
  | 0 => s
  | n + 1 =>
    match firstWaitingOf origin s with
    | none => s
    | some e => endWaitingOf origin cause n (endEntry e.key cause s)

/-- R7, R130: every WAITING entry of an origin ends, then its ON_AIR entry, if there is one. -/
def endAllOf (origin : Byte) (cause : EndCause) (s : State) : State :=
  let s := endWaitingOf origin cause s.claims.entries.length s
  match s.claims.entries.find? fun e => e.origin == origin && e.state == .onAir with
  | none => s
  | some e => endEntry e.key cause s

/-- Of two entries in ENDING, whether the second ended earlier (R16). -/
def Entry.endedFor (now : Time) (e : Entry) : Nat :=
  match e.endingSince with
  | none => 0
  | some t => (now - t).toNat

/-- R16 (1): the remote entry in ENDING with the earliest ending since; equal times go to the earlier in admission order.
(DEDUCED, notes/assumptions/9.md.) -/
def endingVictim (s : State) : Option Entry :=
  (s.claims.entries.filter fun e => !e.live && !e.isLocal).foldl
    (fun v e =>
      match v with
      | none => some e
      | some b => if b.endedFor s.clock.stationTime < e.endedFor s.clock.stationTime then some e else some b)
    none

/-- R16 (2): the remote WAITING entry with the lowest score; equal scores go to the later in admission order. -/
def waitingVictim (s : State) : Option Entry :=
  (s.claims.entries.filter fun e => e.state == .waiting && !e.isLocal).foldl
    (fun v e =>
      match v with
      | none => some e
      | some b => if e.score ≤ b.score then some e else some b)
    none

/-- R1, R16, R17: a place for a newcomer: the table as it is, or less the victim; a WAITING victim is taken only when `takes` says
so. `none` when no place is found. -/
def makeRoom (takes : Entry → Bool) (s : State) : Option State :=
  if s.claims.entries.length < Config.claimCapacity then some s
  else
    match endingVictim s with
    | some v => some (removeEntry v.key s)
    | none =>
      match waitingVictim s with
      | some v => if takes v then some (removeEntry v.key s) else none
      | none => none

/-- R19: from the next local claim number, the first that matches no live local entry; `fuel` bounds the numbers passed over. -/
def freeNumber (entries : List Entry) (fuel : Nat) (n : Byte) : Byte :=
  match fuel with
  | 0 => n
  | k + 1 => if entries.any fun e => e.isLocal && e.live && e.number == n then freeNumber entries k (n + 1) else n

/-- R20: the fields of a new local entry, its first CLAIM frame already queued (refresh count 1). -/
def newLocalEntry (s : State) (c : Fin 5) (number : Byte) : Entry :=
  let src := s.settings.sources[c]
  { origin := s.settings.station, number := number, isLocal := true, source := some c, cls := src.cls, areas := src.areas,
    label := src.label, candidate := s.settings.isCandidate src.areas s.settings.station, state := .waiting, age := 0,
    lastRefresh := none, demotions := 0, stagesFired := 0,
    score := s.settings.score src.cls (sharedAreas src.areas s.settings.served) 0 true 0,
    endCause := none, endingSince := none, repeatsLeft := none, refreshCount := 1, mismatchReported := false,
    madeSecond := s.clock.secondCount, nextRefresh := s.clock.secondCount + 2 }

/-- R10: the fields of a new remote entry. -/
def newRemoteEntry (s : State) (origin number : Byte) (cls : ClaimClass) (areas label : Byte) (k : Nat) : Entry :=
  { origin := origin, number := number, isLocal := false, source := none, cls := cls, areas := areas, label := label,
    candidate := s.settings.isCandidate areas origin, state := .waiting, age := min (2 * k) 65535,
    lastRefresh := some s.clock.stationTime, demotions := 0, stagesFired := 0,
    score := s.settings.score cls (sharedAreas areas s.settings.served) (min (2 * k) 65535) false 0,
    endCause := none, endingSince := none, repeatsLeft := none, refreshCount := k, mismatchReported := false,
    madeSecond := s.clock.secondCount, nextRefresh := 0 }

/-- An entry takes the last place in the admission order (R1). -/
def admitEntry (e : Entry) (s : State) : State := setEntries (s.claims.entries ++ [e]) s

/-- R17, R19, R20: a local claim request of cue source `c`, and its answer: the claim number, or `none` when it is refused.
(Order of the acts: DEDUCED, notes/assumptions/10.md. No selection run for an entry in ENDING that is freed for its number: DEDUCED,
notes/assumptions/11.md.) -/
def createLocal (c : Fin 5) (s : State) : State × Option Byte :=
  match makeRoom (fun _ => true) s with
  | none => (s, none)
  | some s =>
    let number := freeNumber s.claims.entries (s.claims.entries.length + 1) s.claims.nextNumber
    let s := removeEntry (s.settings.station, number) (s.setClaims { s.claims with nextNumber := number + 1 })
    let e := newLocalEntry s c number
    let s := offer (.claim number e.cls e.areas e.label 0) (admitEntry e s)
    (select (activity s), some number)

end Sys2Proof.Machine
end

