-- ==== Sys2Proof/Machine/Claims.lean ====
section
/-! DEFINITION. The acts of the Claim Table, the Overrun Supervisor and the On-Air Selector on the second count: the age step
(R35, R88), the overrun stages (R89 to R96), the claim lifetime (R13), the ending tail (R15), the local refresh (R21), the
release repeats (R22) and the guard timer (R50). -/

namespace Sys2Proof.Machine

/-! ### Overrun supervision -/

/-- R89: the lowest-numbered stage that is on and whose number is greater than the stages fired, with its number. -/
def nextStage (cfg : Settings) (fired : Nat) : Option (Nat × Stage) :=
  ([1, 2, 3, 4].zip cfg.stages.toList).find? fun p => fired < p.1 && p.2.hold != 0

/-- R91 to R96: the action of a stage on a live entry. A LAPSE frame is offered before LAPSE_SENT is posted, so that a FRAME_DROPPED of
the offer stands between OVERRUN and LAPSE_SENT. (The order: DESIGN CHOICE, notes/assumptions/7.md.) -/
def stageAction (cfg : Settings) (action : OverrunAction) (stage : Nat) (e : Entry) (s : State) : State :=
  match action with
  | .nothing | .notify => s
  | .demote =>
    updateEntry e.key (fun x => { x with demotions := satInc 3 x.demotions, score := cfg.scoreOf { x with demotions := satInc 3 x.demotions } }) s
  | .localEnd => endEntry e.key .localEnd s
  | .lapse =>
    if e.isLocal then endEntry e.key .lapsed s
    else endEntry e.key .lapsed (postEvent .lapseSent e.origin e.number (countByte stage) (offer (.lapse e.origin e.number) s))

/-- R89: a stage fires on a live entry. -/
def fireStage (stage : Nat) (st : Stage) (e : Entry) (s : State) : State :=
  let s := updateEntry e.key (fun x => { x with stagesFired := stage }) s
  let s := if st.action = .nothing then s else postEvent .overrun e.origin e.number (countByte stage) s
  stageAction s.settings st.action stage e s

/-- R88, R89: the supervision of one entry in one age step: the next stage is tested again after each that fires; `fuel` is the
number of stages. -/
def supervise (fuel : Nat) (k : Byte × Byte) (s : State) : State :=
  match fuel with
  | 0 => s
  | n + 1 =>
    match s.entry k with
    | none => s
    | some e =>
      if !e.live then s
      else
        match nextStage s.settings e.stagesFired with
        | none => s
        | some (stage, st) => if e.age < st.hold then s else supervise n k (fireStage stage st e s)

/-! ### The age step -/

/-- R35: the entry is stepped: it is live and was not made at this increase. -/
def Entry.stepped (second : Nat) (e : Entry) : Bool := e.live && e.madeSecond != second

/-- R35, R36: the new age and score of a stepped entry. -/
def Entry.aged (cfg : Settings) (e : Entry) : Entry :=
  let e := { e with age := satInc 65535 e.age }
  { e with score := cfg.scoreOf e }

/-- R35, R88: the age step over the entries, the supervision pass and the closing selection. -/
def ageEntries (s : State) : State :=
  let second := s.clock.secondCount
  let keys := (s.claims.entries.filter (Entry.stepped second)).map Entry.key
  let s := setEntries (s.claims.entries.map fun e => if e.stepped second then e.aged s.settings else e) s
  select (keys.foldl (fun s k => supervise 4 k s) s)

/-- R133: the presence and downshift timers at an increase of the second count. -/
def Presence.counted (p : Presence) : Presence :=
  let timer := match p.level.downshiftLimit with
    | none => p.downshiftTimer
    | some limit => satInc limit p.downshiftTimer
  let p := { p with presenceTimer := satInc 60 p.presenceTimer, downshiftTimer := timer }
  { p with downshiftDue := p.atLimit }

/-- R146: the repeat timer at an increase of the second count. -/
def NameStore.counted (own : Byte) (n : NameStore) : NameStore :=
  { n with repeatTimer := if n.applied.origin = own then satInc Config.nameRepeatSeconds n.repeatTimer else 0 }

/-- R165, R166, R168: the backup seconds at an increase of the second count. -/
def ReferenceMonitor.counted (m : ReferenceMonitor) : ReferenceMonitor :=
  if m.state = .locked then m else { m with backupSeconds := inc16 m.backupSeconds }

/-- The increase of the second count at the timers (R133, R146, R165): the backup seconds count in every run state, the others in
RUNNING. -/
def countSecond (s : State) : State :=
  let s := s.setReference s.reference.counted
  if s.running then (s.setPresence s.presence.counted).setNames (s.names.counted s.settings.station) else s

/-- What AGE_STEP does at the increase it belongs to: once, and the ageing only in RUNNING (R35).
The timers are counted before the entries are stepped. (The order: DESIGN CHOICE, notes/assumptions/7.md.) -/
def ageStep (s : State) : State :=
  if s.clock.ageStepDue then
    let s := countSecond (s.setClock { s.clock with ageStepDue := false })
    if s.running then ageEntries s else s
  else s

/-- AGE_STEP. -/
def execAgeStep (s : State) : Result := unlessHeld ageStep s

/-! ### Lifetime, tail, refresh, repeats, guard -/

/-- R13: the named entry expires, when its lifetime has passed. -/
def expireClaim (k : Byte × Byte) (s : State) : State :=
  match s.entry k with
  | none => s
  | some e => if lifetimePassed s e then endEntry k .expired s else s

/-- CLAIM_LIFETIME_EXPIRY. -/
def execClaimLifetimeExpiry (origin number : Byte) (s : State) : Result := whenRunning (expireClaim (origin, number)) s

/-- R15: the named entry is freed, when its tail has passed; the selection follows (R45). -/
def freeTail (k : Byte × Byte) (s : State) : State :=
  match s.entry k with
  | none => s
  | some e => if tailPassed s e then select (removeEntry k s) else s

/-- ENDING_TAIL_EXPIRY. -/
def execEndingTailExpiry (origin number : Byte) (s : State) : Result := whenRunning (freeTail (origin, number)) s

/-- R21: the refresh of the named local entry, when it is due. -/
def refreshLocal (number : Byte) (s : State) : State :=
  let k := (s.settings.station, number)
  match s.entry k with
  | none => s
  | some e =>
    if refreshDue s e then
      updateEntry k (fun x => { x with refreshCount := satInc 255 x.refreshCount, nextRefresh := x.nextRefresh + 2 })
        (offer (.claim number e.cls e.areas e.label e.refreshCount) s)
    else s

/-- LOCAL_REFRESH. -/
def execLocalRefresh (number : Byte) (s : State) : Result := whenRunning (refreshLocal number) s

/-- R22: the next release repeat of the named local entry, when it is due. -/
def repeatRelease (number : Byte) (s : State) : State :=
  let k := (s.settings.station, number)
  match s.entry k with
  | none => s
  | some e =>
    if releaseRepeatDue s e then
      match e.repeatsLeft with
      | none => s
      | some left =>
        updateEntry k (fun x => { x with repeatsLeft := some (left - 1) }) (offer (.release number (3 - left)) s)
    else s

/-- RELEASE_REPEAT. -/
def execReleaseRepeat (number : Byte) (s : State) : Result := whenRunning (repeatRelease number) s

/-- R50: the guard timer stops and the selection runs, when it expires. -/
def expireGuard (s : State) : State :=
  if guardExpired s then select (s.setSelector { s.selector with guard := none }) else s

/-- GUARD_TIMER_EXPIRY. -/
def execGuardTimerExpiry (s : State) : Result := whenRunning expireGuard s

end Sys2Proof.Machine
end

