-- ==== Sys2Proof/Machine/Cells.lean ====
section
/-! DEFINITION. The Cell Generator (R153 to R162), the names and labels it shows (R148, R149), the Reference Monitor (R163 to R168), and
the meanings of CELL_BEGIN, BIT_BOUNDARY, REFERENCE_EDGE, REFERENCE_GAP and RETURN_COMPLETE. -/

namespace Sys2Proof.Machine

/-! ### The contents of a cell -/

/-- R153: a cell from its header and payload bytes, its check byte added. -/
def cellOf (header b1 b2 b3 : Byte) : BitVec 40 := header ++ b1 ++ b2 ++ b3 ++ crc8 [header, b1, b2, b3]

/-- A header byte: type in the upper four bits, slot in the lower four (R153). -/
def cellHeader (type slot : BitVec 4) : Byte := type ++ slot

/-- R156: the FILL cell. -/
def fillCell : BitVec 40 := cellOf (cellHeader 15 0) 0 0 0

/-- The ON_AIR entry, if there is one (R43). -/
def State.onAirEntry (s : State) : Option Entry :=
  match s.selector.onAir with
  | none => none
  | some k => s.entry k

/-- R57: at least one entry is WAITING and a candidate. -/
def State.waitingFlag (s : State) : Bool := s.claims.entries.any fun e => e.state == .waiting && e.candidate

/-- The slot of a STATE cell: on-air flag, class, waiting flag (chapter Format Tables, The cell). -/
def stateSlot (s : State) : BitVec 4 :=
  let cls : Nat := match s.onAirEntry with | none => 0 | some e => e.cls.rank
  BitVec.ofNat 4 ((if s.onAirEntry.isSome then 8 else 0) + 2 * cls + (if s.waitingFlag then 1 else 0))

/-- Byte 2 of a STATE cell: backup-timing flag and label code. -/
def stateByte2 (s : State) : Byte :=
  let label : Nat := match s.onAirEntry with | none => 0 | some e => e.label.toNat
  BitVec.ofNat 8 ((if s.onBackup then 128 else 0) + label)

/-- R154: the STATE cell that begins now. -/
def stateCell (s : State) : BitVec 40 :=
  cellOf (cellHeader 1 (stateSlot s)) s.settings.served (stateByte2 s) s.selector.sequence

/-- Character `i` of a text, counted from 0. -/
def charAt (t : Text) (i : Nat) : Byte := t.toList.getD i 0x20

/-- R155: the NAME cell of group `g`. -/
def nameCell (g : Nat) (t : Text) : BitVec 40 :=
  cellOf (cellHeader 2 (BitVec.ofNat 4 g)) (charAt t (3 * g)) (charAt t (3 * g + 1)) (charAt t (3 * g + 2))

/-- The carousel cell at a position, with its contents now (chapter The Cell Stream, The carousel). -/
def carouselCell (s : State) (position : Fin 6) : BitVec 40 :=
  match position.val with
  | 1 => nameCell 0 s.cells.displayText
  | 2 => nameCell 1 s.cells.displayText
  | 4 => nameCell 2 s.cells.displayText
  | 5 => nameCell 3 s.cells.displayText
  | _ => stateCell s

/-! ### The cycle start -/

/-- R146, R148: the Name Store applies a pending name; the application is an event and then activity. (The order: DESIGN CHOICE,
notes/assumptions/7.md.) -/
def applyName (s : State) : State :=
  match s.names.pendingName with
  | none => s
  | some n =>
    activity (postEvent .nameApplied n.origin (hiByte n.version) (loByte n.version)
      (s.setNames { s.names with applied := n, pendingName := none, repeatTimer := 0 }))

/-- R149: the display text of the cycle that begins. -/
def chooseText (s : State) : Text :=
  match s.onAirEntry with
  | none => s.names.applied.text
  | some e =>
    if s.names.labelSwap = true ∧ e.label ≠ 0 then s.names.labels.toList.getD (e.label.toNat - 1) s.names.applied.text
    else s.names.applied.text

/-- R161: the cycle start. -/
def cycleStart (s : State) : State :=
  let s := applyName s
  s.setCells { s.cells with displayText := chooseText s }

/-! ### Bits -/

/-- A cell begins: its contents are fixed and its first bit is on the data line (R153, R157). -/
def putCell (cell : BitVec 40) (s : State) : State :=
  s.setCells { s.cells with cell := cell, bit := some 0, boundaryDue := false, dataLine := cell.getMsbD 0, bitClock := true }

/-- R159: the cell that begins while the run state is RUNNING. A burst requested before the first cycle start goes ahead of it.
(DESIGN CHOICE, notes/assumptions/21.md.) -/
def nextRunningCell (s : State) : State :=
  if s.cells.burst ≠ 0 then putCell (stateCell s) (s.setCells { s.cells with burst := s.cells.burst - 1 })
  else
    let s := if s.cells.position = 0 then cycleStart s else s
    putCell (carouselCell s s.cells.position) (s.setCells { s.cells with position := s.cells.position + 1 })

/-- R156, R159, R162: the cell that begins at a boundary: a FILL cell outside RUNNING and as the first cell of a start, and otherwise
the one chosen for RUNNING. (The first cell of a start in RUNNING: DESIGN CHOICE, notes/assumptions/21.md.) -/
def beginCell (s : State) : State :=
  if s.running && s.cells.bit.isSome then nextRunningCell s else putCell fillCell s

/-- R157: the middle of a bit: the bit clock output falls. -/
def midBit (s : State) : State := s.setCells { s.cells with bitClock := false }

/-- R157: a bit boundary: the next bit of the cell, or a cell boundary, whose cell then begins with CELL_BEGIN. The middle of the bit
that ends has passed, and the bit clock rises with the bit that begins. (A bit without its middle: DESIGN CHOICE,
notes/assumptions/15.md.) -/
def bitBoundary (s : State) : State :=
  if s.cells.boundaryDue then s
  else
    let s := midBit s
    match s.cells.bit with
    | none => s.setCells { s.cells with boundaryDue := true }
    | some i =>
      if i < 39 then
        s.setCells { s.cells with bit := some (i + 1), dataLine := s.cells.cell.getMsbD (i + 1), bitClock := true }
      else s.setCells { s.cells with boundaryDue := true }

/-- BIT_BOUNDARY: a boundary of the internal backup timing, which paces the bits outside LOCKED (R157). -/
def execBitBoundary (s : State) : Result := unlessHeld (fun s => if s.onBackup then bitBoundary s else s) s

/-! ### The switch to the reference -/

/-- R167: the switch at the cell boundary: LOCKED, REFERENCE_BACK, and the next cell waits for the first rising edge with the bit
clock low. -/
def switchToReference (s : State) : State :=
  let m := s.reference
  let s := s.setReference { m with state := .locked, returnDue := false, releaseMark := false, stableTimer := 0, awaitingEdge := true }
  let s := s.setCells { s.cells with boundaryDue := false, bitClock := false }
  let seconds : Half := BitVec.ofNat 16 m.backupSeconds
  postEvent .referenceBack (hiByte seconds) (loByte seconds) (if m.releaseMark then 1 else 0) s

/-- R159, R162, R167: what happens at a cell boundary. (The waiting boundary: DESIGN CHOICE, notes/assumptions/15.md.) -/
def cellBoundary (s : State) : State :=
  if s.cells.boundaryDue then
    if s.reference.state = .returning ∧ s.reference.returnDue = true then switchToReference s else beginCell s
  else s

/-- CELL_BEGIN. -/
def execCellBegin (s : State) : Result := unlessHeld cellBoundary s

/-- The cell that waited for the switch begins (R167). -/
def endAwait (s : State) : State :=
  (s.setReference { s.reference with awaitingEdge := false }).setCells { s.cells with boundaryDue := true }

/-! ### The Reference Monitor -/

/-- R157, R163, R165, R167: a rising edge of the reference; in LOCKED the second one after a boundary is the middle of the bit, the
fourth the next boundary. An edge taken between the fortieth bit's boundary and CELL_BEGIN, with return due, counts as before that
boundary, and the switch waits for the next one. (DESIGN CHOICE, notes/assumptions/15.md.) -/
def referenceEdge (s : State) : State :=
  let s := s.setReference { s.reference with gapTimer := 0, present := true }
  match s.reference.state with
  | .locked =>
    if s.reference.awaitingEdge then endAwait (s.setReference { s.reference with phaseCount := 0 })
    else
      let s := s.setReference { s.reference with phaseCount := s.reference.phaseCount + 1 }
      if s.reference.phaseCount = 0 then bitBoundary s else if s.reference.phaseCount = 2 then midBit s else s
  | .lost => s.setReference { s.reference with state := .returning, stableTimer := 0, returnDue := false, releaseMark := false }
  | .returning | .lostHeld => s

/-- REFERENCE_EDGE. -/
def execReferenceEdge (s : State) : Result := unlessHeld referenceEdge s

/-- R164, R167: the reference is lost: the bit in progress ends and the next begins at once on the backup. REFERENCE_LOST carries the
position and burst count as they stand before a cell that begins at this moment. (DESIGN CHOICE, notes/assumptions/21.md.) -/
def loseReference (s : State) : State :=
  let waiting := s.reference.awaitingEdge
  let s := s.setReference { s.reference with state := .lost, backupSeconds := 0 }
  let s := postEvent .referenceLost (countByte s.cells.position.val) (countByte s.cells.burst) 0 s
  if waiting then endAwait s else bitBoundary s

/-- R163, R164, R166: the gap timer reaches 5 ms. -/
def referenceGap (s : State) : State :=
  let s := s.setReference { s.reference with gapTimer := Config.gapMilliseconds, present := false }
  match s.reference.state with
  | .locked => loseReference s
  | .returning => s.setReference { s.reference with state := .lost, stableTimer := 0, returnDue := false, releaseMark := false }
  | .lost | .lostHeld => s

/-- REFERENCE_GAP. -/
def execReferenceGap (s : State) : Result := unlessHeld referenceGap s

/-- R166, R168: the stable timer reaches 2 s in RETURNING. Before an image has been accepted in this start the auto-return option is
off. (DESIGN CHOICE, notes/assumptions/2.md.) -/
def returnComplete (s : State) : State :=
  if s.reference.state = .returning ∧ s.reference.returnDue = false then
    let s := s.setReference { s.reference with stableTimer := Config.stableMilliseconds }
    if s.settings.autoReturn || s.reference.releaseMark then s.setReference { s.reference with returnDue := true }
    else s.setReference { s.reference with state := .lostHeld }
  else s

/-- RETURN_COMPLETE. -/
def execReturnComplete (s : State) : Result := unlessHeld returnComplete s

end Sys2Proof.Machine
end

