-- ==== Sys2Proof/Machine/Cues.lean ====
section
/-! DEFINITION. The Cue Front End: the four physical channels (R62 to R76), the manual cue source (R78 to R80), and the meanings of
CUE_SAMPLE and the three MANUAL_CUE commands. -/

namespace Sys2Proof.Machine

/-! ### A sample of one channel -/

/-- The counters and run start of a channel that is IDLE (R66, R68, R73). -/
def Channel.toIdle (ch : Channel) : Channel :=
  { ch with state := .idle, runLength := 0, highCount := 0, offCount := 0, runStart := none, number := none }

/-- R71: the channel after a refused request at time `now`. -/
def Channel.refused (now : Time) (ch : Channel) : Channel :=
  { ch.writeRecord { start := ch.runStart.getD now, stop := some now, outcome := .refused, number := none } with
    state := .blocked, runLength := 0, highCount := 0, offCount := 0, runStart := none, number := none }

/-- R70: the channel after its request was answered with a number. -/
def Channel.created (now : Time) (number : Byte) (ch : Channel) : Channel :=
  { ch.writeRecord { start := ch.runStart.getD now, stop := none, outcome := .opened, number := some number } with
    state := .active, runLength := 0, highCount := 0, offCount := 0, runStart := none, number := some number }

/-- R70, R71: a validated run asks for a local claim. -/
def requestClaim (c : Fin 4) (s : State) : State :=
  match createLocal c.castSucc s with
  | (s, some number) => updateChannel c (Channel.created s.clock.stationTime number) s
  | (s, none) =>
    let src := s.settings.sources[c.castSucc]
    postEvent .claimRefused (countByte c.val) src.cls.code src.areas
      (updateChannel c (Channel.refused s.clock.stationTime) s)

/-- R69: the validation test, and the request when it is met. -/
def validateRun (c : Fin 4) (s : State) : State :=
  if s.settings.sources[c.castSucc].validated s.cues.channels[c] then requestClaim c s else s

/-- R66: a sample above low in IDLE. -/
def Channel.startRun (now : Time) (high : Bool) (ch : Channel) : Channel :=
  { ch with state := .run, runLength := 1, highCount := if high then 1 else 0, runStart := some now }

/-- R67: a sample above low in RUN. -/
def Channel.countRun (high : Bool) (ch : Channel) : Channel :=
  { ch with runLength := satInc 255 ch.runLength, highCount := if high then satInc 255 ch.highCount else ch.highCount }

/-- R73, R76: the off count after a sample in ACTIVE or BLOCKED. -/
def Channel.countOff (aboveLow : Bool) (ch : Channel) : Channel :=
  { ch with offCount := if aboveLow then 0 else ch.offCount + 1 }

/-- R73: the cue of an ACTIVE channel has ended: its claim ends with cause RELEASED, its open record is closed and it is IDLE. -/
def endCue (c : Fin 4) (s : State) : State :=
  let s := match s.cues.channels[c].number with
    | none => s
    | some n => endEntry (s.settings.station, n) .released s
  updateChannel c (fun ch => (ch.closeRecord s.clock.stationTime .released).toIdle) s

/-- R62, R64 to R76: one sample of one enabled channel. Where a sample that leaves IDLE also validates, the activity of leaving IDLE
comes before the claim request. (The order: DESIGN CHOICE, notes/assumptions/7.md.) -/
def sampleEnabled (c : Fin 4) (v : Byte) (s : State) : State :=
  let src := s.settings.sources[c.castSucc]
  let above := src.aboveLow v
  match s.cues.channels[c].state with
  | .idle =>
    if above then validateRun c (activity (updateChannel c (Channel.startRun s.clock.stationTime (src.high v)) s)) else s
  | .run =>
    if above then validateRun c (updateChannel c (Channel.countRun (src.high v)) s)
    else updateChannel c Channel.toIdle s
  | .active =>
    let s := updateChannel c (Channel.countOff above) s
    if src.nOff ≤ s.cues.channels[c].offCount then endCue c s else s
  | .blocked =>
    let s := updateChannel c (Channel.countOff above) s
    if src.nOff ≤ s.cues.channels[c].offCount then updateChannel c Channel.toIdle s else s

/-- R62: a disabled channel's samples are taken but not examined. -/
def sampleChannel (c : Fin 4) (v : Byte) (s : State) : State :=
  if s.settings.sources[c.castSucc].areas = 0 then s else sampleEnabled c v s

/-! ### The four samples of one increase of station time -/

/-- Pick out of `l` by position, again and again. -/
def pickInOrder : List Nat → List (Fin 4) → List (Fin 4)
  | [], _ => []
  | d :: ds, l =>
    match l[d]? with
    | none => []
    | some c => c :: pickInOrder ds (l.eraseIdx d)

/-- The 24 orders of the four channels (R72 leaves the order of requests of one station time open). (DESIGN CHOICE,
notes/assumptions/8.md.) -/
def channelOrder (order : Fin 24) : List (Fin 4) :=
  pickInOrder [order.val / 6, order.val / 2 % 3, order.val % 2, 0] [0, 1, 2, 3]

/-- The four samples are handled, in the order given. -/
def sampleAll (values : Vector Byte 4) (order : Fin 24) (s : State) : State :=
  (channelOrder order).foldl (fun s c => sampleChannel c values[c] s) s

/-- R63: the values stand on the inputs from now on, and the samples of the present increase of station time are taken once, in RUNNING.
(Values that come with no sample due: DESIGN CHOICE, notes/assumptions/4.md.) -/
def takeSamples (values : Vector Byte 4) (order : Fin 24) (s : State) : State :=
  let s := s.setCues { s.cues with inputs := values }
  if s.running && s.clock.sampleDue then sampleAll values order (s.setClock { s.clock with sampleDue := false }) else s

/-- CUE_SAMPLE. -/
def execCueSample (v0 v1 v2 v3 : Byte) (order : Fin 24) (s : State) : Result :=
  unlessHeld (takeSamples #v[v0, v1, v2, v3] order) s

/-! ### The manual cue source -/

/-- R78: a manual cue start. -/
def manualStart (s : State) : State :=
  match s.cues.manual with
  | .active => answer .busy s
  | .idle =>
    if s.settings.sources[(4 : Fin 5)].areas = 0 then answer .refused s
    else
      match createLocal 4 s with
      | (s, some number) => answer .accepted (s.setCues { s.cues with manual := .active, manualNumber := some number })
      | (s, none) => answer .refused s

/-- R79: a manual cue stop. -/
def manualStop (s : State) : State :=
  match s.cues.manual with
  | .idle => answer .notActive s
  | .active =>
    let s := match s.cues.manualNumber with
      | none => s
      | some n => endEntry (s.settings.station, n) .released s
    answer .accepted (s.setCues { s.cues with manual := .idle, manualNumber := none })

/-- R77 to R79, R189: MANUAL_CUE taken in RUNNING with this parameter byte; it is activity whatever its reply, and the
activity comes before the claim request or the claim's end. (The order: DESIGN CHOICE, notes/assumptions/7.md.) -/
def manualCue (parameter : Byte) (s : State) : State :=
  let s := activity s
  if parameter = 0x01 then manualStart s
  else if parameter = 0x02 then manualStop s
  else answer .unknown s

/-- MANUAL_CUE with the start byte. -/
def execManualCueStart (s : State) : Result := atRunningPort (manualCue 0x01) s

/-- MANUAL_CUE with the stop byte. -/
def execManualCueStop (s : State) : Result := atRunningPort (manualCue 0x02) s

/-- MANUAL_CUE with another byte. -/
def execManualCueUnknown (parameter : Byte) (s : State) : Result := atRunningPort (manualCue parameter) s

end Sys2Proof.Machine
end

