-- ==== Sys2Proof/Machine/Peers.lean ====
section
/-! DEFINITION. The Peer Table and the Presence Scheduler on their own: hearing a peer and its restart (R124, R125, R7), the payload
of a PRESENCE (R127, R128), absence (R129, R130), the periodic PRESENCE (R136), the downshift (R135) and the name repeat
(R146). -/

namespace Sys2Proof.Machine

/-! ### Hearing a peer -/

/-- R7: a restart of an origin: its ENDING entries are freed, then its WAITING entries and its ON_AIR entry end with cause
RESTARTED. The freeing of entries is followed by a selection run (R5). (DEDUCED, notes/assumptions/11.md.) -/
def restartOrigin (origin : Byte) (s : State) : State :=
  let gone : Entry → Bool := fun e => e.origin == origin && !e.live
  let s := if s.claims.entries.any gone then select (setEntries (s.claims.entries.filter fun e => !gone e) s) else s
  endAllOf origin .restarted s

/-- R124 (1 to 4): the sender's entry after a frame was heard from it. -/
def Peer.heard (c : Clock) (p : Peer) : Peer :=
  { p with framesHeard := inc16 p.framesHeard, lastHeard := some c.stationTime, state := .present,
           deadline := some (c.after (3 * p.level.period)) }

/-- R125: the start mark of an accepted frame against the stored one. -/
def compareMark (origin mark : Byte) (s : State) : State :=
  match (s.peer origin).mark with
  | none => updatePeer origin (fun p => { p with mark := some mark }) s
  | some held =>
    if held = mark then s
    else updatePeer origin (fun p => { p with lastEnded := none, mark := some mark }) (restartOrigin origin s)

/-- R124: an accepted frame of any kind from a peer. -/
def hearPeer (origin mark kind : Byte) (s : State) : State :=
  let fresh := (s.peer origin).state ≠ .present
  let s := updatePeer origin (Peer.heard s.clock) s
  let s := if fresh then postEvent .peerPresent origin mark kind s else s
  compareMark origin mark s

/-- R127, R128: the payload of a PRESENCE frame with a level that is not rejected. -/
def takePresence (origin : Byte) (level : QuietLevel) (fingerprint : Half) (s : State) : State :=
  let differs := fingerprint ≠ s.settings.fingerprint
  let news := differs ∧ (s.peer origin).fingerprintMatch ≠ some false
  let s := updatePeer origin (fun p =>
    { p with level := level, deadline := some (s.clock.after (3 * level.period)), fingerprint := some fingerprint,
             fingerprintMatch := some (fingerprint == s.settings.fingerprint) }) s
  if news then postEvent .configMismatch origin (hiByte fingerprint) (loByte fingerprint) s else s

/-! ### Absence -/

/-- R129: the entry of a peer that becomes ABSENT. -/
def Peer.lost (p : Peer) : Peer := { p with state := .absent, deadline := none, absences := satInc 255 p.absences }

/-- R130: how many entries of an origin are in WAITING or ON_AIR. -/
def liveCount (origin : Byte) (s : State) : Nat := (s.claims.entries.filter fun e => e.origin == origin && e.live).length

/-- R129, R130: a peer becomes ABSENT, its claims end with cause EXPIRED, and PEER_ABSENT is posted. -/
def losePeer (station : Byte) (s : State) : State :=
  let s := updatePeer station Peer.lost s
  let n := liveCount station s
  let s := endAllOf station .expired s
  postEvent .peerAbsent station (countByte (s.peer station).absences) (countByte n) s

/-- R129: the deadline test of one peer. -/
def testDeadline (station : Byte) (s : State) : State :=
  if deadlineReached s (s.peer station) then losePeer station s else s

/-- PEER_DEADLINE_REACHED. -/
def execPeerDeadlineReached (station : Byte) (s : State) : Result := whenRunning (testDeadline station) s

/-! ### The Presence Scheduler -/

/-- R136, R137: the periodic offer, when the presence timer has reached the period, or had reached it when a downshift at the same
increase set it to 0. -/
def periodicPresence (s : State) : State :=
  if s.presence.periodicOfferDue then offerPresence (s.setPresence { s.presence with periodicDue := false }) else s

/-- PERIODIC_PRESENCE. -/
def execPeriodicPresence (s : State) : Result := whenRunning periodicPresence s

/-- R135, R137: the downshift test, once at each increase at which the timer stands at the limit; a periodic offer that falls at the
same increase is still to be made after it. -/
def downshiftTest (s : State) : State :=
  if s.presence.downshiftDue && s.presence.atLimit then
    let s := s.setPresence { s.presence with downshiftDue := false }
    if downshiftRefused s then s
    else offerPresence (s.setPresence { s.presence with level := s.presence.level.down, downshiftTimer := 0,
                                                           periodicDue := s.presence.periodicOfferDue })
  else s

/-- DOWNSHIFT_TEST. -/
def execDownshiftTest (s : State) : Result := whenRunning downshiftTest s

/-! ### The name repeat -/

/-- R146: the repeat of the applied name of own origin, when the timer has reached 30. -/
def repeatName (s : State) : State :=
  if s.names.applied.origin = s.settings.station ∧ Config.nameRepeatSeconds ≤ s.names.repeatTimer then
    offer (.name s.names.applied.version s.names.applied.text) (s.setNames { s.names with repeatTimer := 0 })
  else s

/-- NAME_REPEAT. -/
def execNameRepeat (s : State) : Result := whenRunning repeatName s

end Sys2Proof.Machine
end

