-- ==== Sys2Proof/Machine/Link.lean ====
section
/-! DEFINITION. The coordination link: the line state (R101), the Link Receiver (R102 to R108), what the Claim Table and the Name
Store make of a frame (R6 to R12, R16, R144), the Link Transmitter (R115 to R119), and the meanings of the link's events. -/

namespace Sys2Proof.Machine

/-! ### Frames at the Claim Table -/

/-- R8: the field mask of CLAIM_MISMATCH: bit 0 class, bit 1 area set, bit 2 label code. -/
def mismatchMask (e : Entry) (cls : ClaimClass) (areas label : Byte) : Byte :=
  (if e.cls = cls then 0 else 1) + (if e.areas = areas then 0 else 2) + (if e.label = label then 0 else 4)

/-- R8: a refresh of a live entry. -/
def refreshEntry (e : Entry) (cls : ClaimClass) (areas label : Byte) (k : Nat) (s : State) : State :=
  let mask := mismatchMask e cls areas label
  let news := mask ≠ 0 ∧ e.mismatchReported = false
  let s := updateEntry e.key (fun x =>
    { x with lastRefresh := some s.clock.stationTime, refreshCount := k,
             mismatchReported := x.mismatchReported || mask != 0 }) s
  if news then postEvent .claimMismatch e.origin e.number mask s else s

def countStale (s : State) : State := s.setClaims { s.claims with stale := inc16 s.claims.stale }

def countOutside (s : State) : State := s.setClaims { s.claims with outside := inc16 s.claims.outside }

/-- R10, R16: a CLAIM frame that matches no entry and is not stale. An entry of the same origin and number that counts as absent is
freed first (R1, R7), with no selection run of its own (DEDUCED, notes/assumptions/11.md). The activity of the making comes before
the selection run. (The order: DESIGN CHOICE, notes/assumptions/7.md.) -/
def considerClaim (origin number : Byte) (cls : ClaimClass) (areas label : Byte) (k : Nat) (s : State) : State :=
  if areas &&& s.settings.served = 0 then countOutside s
  else
    let s := removeEntry (origin, number) s
    let e := newRemoteEntry s origin number cls areas label k
    match makeRoom (fun v => v.score < e.score) s with
    | none => postEvent .tableFull origin number cls.code s
    | some s => select (activity (admitEntry e s))

/-- R9: the frame's number is covered by the origin's last ended number. -/
def coveredByLastEnded (s : State) (origin number : Byte) : Bool :=
  match (s.peer origin).lastEnded with
  | none => false
  | some last => staleNumber number last

/-- R8 to R10: a CLAIM frame whose payload passed R6. -/
def takeClaim (origin number : Byte) (cls : ClaimClass) (areas label : Byte) (k : Nat) (s : State) : State :=
  match (s.entry (origin, number)).filter fun e => !e.countsAsAbsent with
  | some e => if e.live then refreshEntry e cls areas label k s else countStale s
  | none => if coveredByLastEnded s origin number then countStale s else considerClaim origin number cls areas label k s

/-- R6: the payload check of a CLAIM frame, then R8 to R10. -/
def claimPayload (origin : Byte) (payload : List Byte) (s : State) : State :=
  match classOfCode (byteAt payload 1) with
  | none => countMalformed s
  | some cls =>
    if 7 < (byteAt payload 3).toNat then countMalformed s
    else takeClaim origin (byteAt payload 0) cls (byteAt payload 2) (byteAt payload 3) (byteAt payload 4).toNat s

/-- R11: a RELEASE frame whose payload passed R6. -/
def takeRelease (origin number : Byte) (s : State) : State :=
  match (s.entry (origin, number)).filter fun e => !e.countsAsAbsent with
  | some e => if e.live then endEntry (origin, number) .released s else s
  | none => noteEnded origin number s

/-- R6: the payload check of a RELEASE frame, then R11. -/
def releasePayload (origin : Byte) (payload : List Byte) (s : State) : State :=
  if 2 < (byteAt payload 1).toNat then countMalformed s else takeRelease origin (byteAt payload 0) s

/-- R12: a LAPSE frame of sender `sender` for the claim (origin, number). -/
def takeLapse (sender origin number : Byte) (s : State) : State :=
  match (s.entry (origin, number)).filter fun e => !e.countsAsAbsent with
  | some e =>
    if e.live then postEvent .lapseHeard sender origin number (endEntry (origin, number) .lapsed s) else s
  | none => if origin = s.settings.station then s else noteEnded origin number s

/-- R6: the payload check of a LAPSE frame, then R12. -/
def lapsePayload (sender : Byte) (payload : List Byte) (s : State) : State :=
  if !isStation (byteAt payload 0) then countMalformed s else takeLapse sender (byteAt payload 0) (byteAt payload 1) s

/-! ### Frames at the Peer Table and the Name Store -/

/-- R127: the payload of a PRESENCE frame. -/
def presencePayload (origin : Byte) (payload : List Byte) (s : State) : State :=
  match levelOfCode (byteAt payload 0) with
  | none => countMalformed s
  | some level => takePresence origin level (halfOf (byteAt payload 1) (byteAt payload 2)) s

/-- R143: the newest known name. -/
def NameStore.newest (n : NameStore) : NameRecord := n.pendingName.getD n.applied

/-- R144: the payload of a NAME frame. -/
def namePayload (origin : Byte) (payload : List Byte) (s : State) : State :=
  let n : NameRecord :=
    { text := printableText (textAt payload 2), version := halfOf (byteAt payload 0) (byteAt payload 1), origin := origin }
  if newerName n s.names.newest then s.setNames { s.names with pendingName := some n } else s

/-! ### Reception -/

/-- R108: an accepted frame is handed to the Peer Table, counted, and handed on by its kind. -/
def dispatchFrame (kind origin mark : Byte) (payload : List Byte) (s : State) : State :=
  let s := hearPeer origin mark kind s
  let s := countLink (fun c => { c with framesAccepted := inc16 c.framesAccepted }) s
  if kind = 1 then presencePayload origin payload s
  else if kind = 2 then claimPayload origin payload s
  else if kind = 3 then releasePayload origin payload s
  else if kind = 4 then lapsePayload origin payload s
  else namePayload origin payload s

/-- R107: DUPLICATE_STATION may be posted again. -/
def duplicateReportDue (s : State) : Bool :=
  match s.rx.lastDuplicate with
  | none => true
  | some t => Config.duplicateSeconds ≤ s.clock.secondCount - t

/-- R107: a frame of another station with the own number. -/
def hearDuplicate (kind mark : Byte) (s : State) : State :=
  let s := countLink (fun c => { c with duplicateStation := inc16 c.duplicateStation }) s
  if duplicateReportDue s then
    postEvent .duplicateStation kind mark 0 (s.setRx { s.rx with lastDuplicate := some s.clock.secondCount })
  else s

/-- The receiver back in WAIT_IDLE with nothing assembled (R102). -/
def Receiver.toWaitIdle (r : Receiver) : Receiver :=
  { r with state := .waitIdle, length := none, buffer := [], framing := false, own := false }

/-- Write the receiver back to WAIT_IDLE. -/
def rxWaitIdle (s : State) : State := s.setRx s.rx.toWaitIdle

/-- R104: a complete assembly that is not own: the counter of the first check that fails, or the frame's handling. -/
def completeAssembly (length : Byte) (buffer : List Byte) (framing : Bool) (s : State) : State :=
  match judgeAssembly s.settings.station length buffer framing with
  | .framing => countLink (fun c => { c with framing := inc16 c.framing }) s
  | .badCrc => countLink (fun c => { c with badCrc := inc16 c.badCrc }) s
  | .unknownKind => countLink (fun c => { c with unknownKind := inc16 c.unknownKind }) s
  | .malformed => countMalformed s
  | .duplicate kind mark => hearDuplicate kind mark s
  | .accepted kind origin mark payload => dispatchFrame kind origin mark payload s

/-- R103, R106: a character of an assembly. `own` says that the own transmitter sent it and read it back equal. -/
def assemble (c : Byte) (framingError own : Bool) (s : State) : State :=
  let own := s.rx.own && own
  let framing := s.rx.framing || framingError
  match s.rx.length with
  | none =>
    if c.toNat < 3 ∨ 20 < c.toNat then (if own then rxWaitIdle s else countMalformed (rxWaitIdle s))
    else s.setRx { s.rx with length := some c, framing := framing, own := own }
  | some l =>
    let buffer := s.rx.buffer ++ [c]
    if buffer.length < l.toNat + 2 then s.setRx { s.rx with buffer := buffer, framing := framing, own := own }
    else if own then rxWaitIdle s
    else completeAssembly l buffer framing (rxWaitIdle s)

/-- R102: a character reaches the receiver in RUNNING. -/
def receiveRunning (c : Byte) (framingError own : Bool) (s : State) : State :=
  match s.rx.state with
  | .waitIdle => s
  | .ready =>
    if c = Config.startCharacter ∧ framingError = false then
      s.setRx { s.rx with state := .assembling, length := none, buffer := [], framing := false, own := own }
    else countLink (fun k => { k with stray := inc16 k.stray }) (rxWaitIdle s)
  | .assembling => assemble c framingError own s

/-- R109: the line state is kept in STARTING and RUNNING. (DEDUCED, notes/assumptions/13.md.) -/
def State.lineKept (s : State) : Bool := s.loader.runState != .configFault

/-- Write the line state, where it is kept (R101, R109). -/
def setLine (l : LineState) (s : State) : State := if s.lineKept then s.setRx { s.rx with line := l } else s

/-- A character has been received on the link (R100 to R103): its start bit has made the line busy, and in RUNNING the receiver
takes it. (DEDUCED, notes/assumptions/5.md.) -/
def receiveCharacter (c : Byte) (framingError own : Bool) (s : State) : State :=
  let s := setLine .busy s
  if s.running then receiveRunning c framingError own s else s

/-- R100: a character of another station, as the levels that the link receive input shows in the middle of its ten bit times. -/
def receiveLevels (levels : List Bool) (s : State) : State :=
  receiveCharacter (characterOf levels).1 (characterOf levels).2 false s

/-! ### Meanings of the receiver's events

R102 and R103 say what a received character does in each state of the receiver; the rows of the table name the cases. Each of
these meanings hands its character to the receiver, which finds the case. -/

/-- STRAY_CHARACTER. -/
def execStrayCharacter (value : Byte) (framingError : Bool) (s : State) : Result :=
  unlessHeld (receiveCharacter value framingError false) s

/-- START_CHARACTER. -/
def execStartCharacter (s : State) : Result := unlessHeld (receiveCharacter Config.startCharacter false false) s

/-- ASSEMBLY_CHARACTER. -/
def execAssemblyCharacter (value : Byte) (framingError : Bool) (s : State) : Result :=
  unlessHeld (receiveCharacter value framingError false) s

/-- BAD_LENGTH_CHARACTER. -/
def execBadLengthCharacter (value : Byte) (framingError : Bool) (s : State) : Result :=
  unlessHeld (receiveCharacter value framingError false) s

/-- DISCARDED_ASSEMBLY. -/
def execDiscardedAssembly (last : Byte) (framingError : Bool) (s : State) : Result :=
  unlessHeld (receiveCharacter last framingError false) s

/-- CLAIM_FRAME. -/
def execClaimFrame (last : Byte) (s : State) : Result := unlessHeld (receiveCharacter last false false) s

/-- RELEASE_FRAME. -/
def execReleaseFrame (last : Byte) (s : State) : Result := unlessHeld (receiveCharacter last false false) s

/-- LAPSE_FRAME. -/
def execLapseFrame (last : Byte) (s : State) : Result := unlessHeld (receiveCharacter last false false) s

/-- PRESENCE_FRAME. -/
def execPresenceFrame (last : Byte) (s : State) : Result := unlessHeld (receiveCharacter last false false) s

/-- NAME_FRAME. -/
def execNameFrame (last : Byte) (s : State) : Result := unlessHeld (receiveCharacter last false false) s

/-- R103, R106: the assembly is abandoned, and counted when it is not own. -/
def abandonAssembly (s : State) : State :=
  match s.rx.state with
  | .assembling =>
    if s.rx.own then rxWaitIdle s else countLink (fun c => { c with truncated := inc16 c.truncated }) (rxWaitIdle s)
  | .waitIdle | .ready => s

/-- ASSEMBLY_ABANDONED. -/
def execAssemblyAbandoned (s : State) : Result := whenRunning abandonAssembly s

/-- R101, R102: the line becomes idle, and in RUNNING the receiver goes from WAIT_IDLE to READY. The command itself stands for the 4
character times of rest, in whatever state it comes, also while an assembly or an own attempt is under way. (DESIGN CHOICE,
notes/assumptions/4.md.) -/
def becomeIdle (s : State) : State :=
  let s := setLine .idle s
  if s.running ∧ s.rx.state = .waitIdle then s.setRx { s.rx with state := .ready } else s

/-- LINE_IDLE. -/
def execLineIdle (s : State) : Result := unlessHeld becomeIdle s

/-- LINE_BUSY. -/
def execLineBusy (s : State) : Result := unlessHeld (setLine .busy) s

/-! ### The Link Transmitter -/

/-- R115: the end of a slot of an idle line, with no attempt under way. -/
def countSlot (s : State) : State :=
  if s.rx.line = .idle ∧ s.tx.sending = none then s.setTx { s.tx with backoff := s.tx.backoff.map (· - 1) } else s

/-- BACKOFF_SLOT. -/
def execBackoffSlot (s : State) : Result := whenRunning countSlot s

/-- R115, R117: the head may begin an attempt. -/
def attemptDue (s : State) : Bool :=
  s.rx.line == .idle && s.tx.sending.isNone && s.tx.backoff == some 0 && !s.tx.queue.isEmpty

/-- R100, R117: the level on link transmit in bit time `i` of the present character time; at rest while no attempt is on the line. -/
def State.linkTransmit (s : State) (i : Nat) : Bool :=
  match s.tx.sending with
  | none => true
  | some a => (characterLevels (byteAt a.chars a.index)).getD i true

/-- R117: the head's first character is sent: its in transmission mark is set, driver enable is asserted and the line is busy. -/
def beginAttempt (s : State) : State :=
  match s.tx.queue with
  | [] => s
  | f :: q =>
    setLine .busy (s.setTx { s.tx with queue := { f with inTransmission := true } :: q, driverEnable := true,
                                       sending := some { chars := f.characters, index := 0, stopping := false } })

/-- BACKOFF_EXPIRY. -/
def execBackoffExpiry (s : State) : Result := whenRunning (fun s => if attemptDue s then beginAttempt s else s) s

/-- The attempt on the line is over: driver enable is deasserted (R100). -/
def endAttempt (s : State) : State := s.setTx { s.tx with sending := none, driverEnable := false }

/-- R113, R115, R117, R119: the head leaves the queue, the next frame becomes head, and a renewal mark set by the PRESENCE that left
is taken up. -/
def leaveHead (s : State) : State :=
  match s.tx.queue with
  | [] => s
  | f :: q =>
    let s := drawBackoff (setQueue q s)
    if f.isPresence && f.inTransmission && s.tx.renewal then offer (ownPresence s) (s.setTx { s.tx with renewal := false })
    else s

/-- R117, R121: the own character on the line has been read back equal. (A stopping attempt: DEDUCED, notes/assumptions/14.md.)
-/
def readBackEqual (a : Attempt) (s : State) : State :=
  let s := receiveCharacter (byteAt a.chars a.index) false true s
  if a.stopping then endAttempt s
  else if a.index + 1 < a.chars.length then s.setTx { s.tx with sending := some { a with index := a.index + 1 } }
  else leaveHead (countLink (fun c => { c with framesSent := inc16 c.framesSent }) (endAttempt s))

/-- R118: the attempt number of the head goes up. -/
def raiseAttempt (s : State) : State :=
  match s.tx.queue with
  | [] => s
  | f :: q => setQueue ({ f with attempt := f.attempt + 1 } :: q) s

/-- R118, R119: the head after a collision: a further attempt, or the frame is dropped. -/
def afterCollision (s : State) : State :=
  match s.tx.queue with
  | [] => s
  | f :: _ =>
    if f.attempt < Config.lastAttempt then drawBackoff (raiseAttempt s)
    else leaveHead (frameDropped f.body 1 5 s)

/-- R106, R118, R121: the own character on the line has been read back as another, or with a framing error. (Order of the acts:
DESIGN CHOICE, notes/assumptions/7.md.) -/
def collide (a : Attempt) (c : Byte) (framingError : Bool) (s : State) : State :=
  let s := endAttempt s
  let s :=
    if a.stopping then s
    else afterCollision (countLink (fun k => { k with collisions := inc16 k.collisions }) s)
  receiveCharacter c framingError false s

/-- What the receive input gives for the own character on the line (R117, R118); nothing while none is being sent. -/
def ownCharacterReturns (value : Option (Byte × Bool)) (s : State) : State :=
  match s.tx.sending with
  | none => s
  | some a =>
    match value with
    | none => readBackEqual a s
    | some (c, framingError) =>
      if c = byteAt a.chars a.index ∧ framingError = false then readBackEqual a s else collide a c framingError s

/-- CHARACTER_READ_BACK. -/
def execCharacterReadBack (s : State) : Result := unlessHeld (ownCharacterReturns none) s

/-- FRAME_SENT. -/
def execFrameSent (s : State) : Result := unlessHeld (ownCharacterReturns none) s

/-- COLLISION. -/
def execCollision (value : Byte) (framingError : Bool) (s : State) : Result :=
  unlessHeld (ownCharacterReturns (some (value, framingError))) s

end Sys2Proof.Machine
end

