-- ==== Sys2Proof/Machine/SitePort.lean ====
section
/-! DEFINITION. The site port: the reports and their bytes (R84, R139, R173 to R177, R190), SET_NAME (R145), CLEAR (R187), RESTART as
a command (R172), and the commands that are not taken (R171, R189). -/

namespace Sys2Proof.Machine

/-! ### The bytes of a transaction (R171) -/

/-- R171: how many bytes the command of this code takes: its command byte and its parameter bytes. -/
def commandLength (code : Byte) : Nat := if code = 0x10 then 13 else if code = 0x11 then 2 else 1

/-- R171: the byte the part sends in byte time `i`, counted from 0 at the fall of chip select, of a transaction with command byte
`code`: 0x00 while the command is clocked in, then the reply and the data that the command left in the data output, then 0x00. -/
def State.byteSent (s : State) (code : Byte) (i : Nat) : Byte :=
  if i < commandLength code then 0x00 else s.port.output.getD (i - commandLength code) 0x00

/-- R171, R188: the bit on the data output in bit time `k` of that transaction, each byte most significant bit first. -/
def State.bitSent (s : State) (code : Byte) (k : Nat) : Bool := (s.byteSent code (k / 8)).getMsbD (k % 8)

/-! ### The status record (R174, chapter Format Tables) -/

/-- The on-air summary: origin, number, class and stored score of the ON_AIR entry, or zeros. -/
def onAirSummary (s : State) : List Byte :=
  match s.onAirEntry with
  | none => [0, 0, 0, 0]
  | some e => [e.origin, e.number, e.cls.code, countByte e.score]

/-- The eleven global link counters, in the order of R110. -/
def counterBytes (c : LinkCounters) : List Byte :=
  [c.framesAccepted, c.framesSent, c.stray, c.truncated, c.framing, c.badCrc, c.unknownKind, c.malformed, c.duplicateStation,
   c.collisions, c.framesDropped].flatMap countBytes

/-- The 55 bytes of the status record. -/
def statusRecord (s : State) : List Byte :=
  let running := s.loader.runState = .running
  [s.loader.runState.code, countByte s.loader.faultCause, if running then s.settings.station else 0, s.claims.startMark]
  ++ halfBytes (if running then s.settings.fingerprint else 0)
  ++ [s.reference.state.code, flagByte s.reference.present, s.presence.level.code]
  ++ onAirSummary s
  ++ [s.selector.sequence, countByte s.claims.entries.length, countByte s.port.events.length, flagByte s.port.overflow]
  ++ halfBytes s.names.applied.version
  ++ [s.names.applied.origin, flagByte s.names.pendingName.isSome]
  ++ (s.settings.stages.toList.flatMap fun st => countBytes st.hold)
  ++ counterBytes s.rx.counters
  ++ countBytes s.claims.stale
  ++ countBytes s.claims.outside

/-- STATUS. -/
def execStatus (s : State) : Result := atPort (fun s => portReturns (Reply.accepted.code :: statusRecord s) s) s

/-! ### Events (R177) -/

/-- The 8 bytes of an event record. -/
def EventRecord.bytes (r : EventRecord) : List Byte := r.kind.code :: timeBytes r.time ++ [r.first, r.second, r.third]

/-- The EVENTS report: the count, the overflow flag as it stands, and the records, oldest first. -/
def eventsReport (s : State) : List Byte :=
  countByte s.port.events.length :: flagByte s.port.overflow :: s.port.events.flatMap EventRecord.bytes

/-- R177: the report is returned; the records are removed and the overflow flag is cleared. -/
def takeEvents (s : State) : State :=
  s.setPort { s.port with output := Reply.accepted.code :: eventsReport s, events := [], overflow := false }

/-- EVENTS. -/
def execEvents (s : State) : Result := atPort takeEvents s

/-! ### Claims (R175) -/

/-- The 19 bytes of a claim record. -/
def Entry.bytes (e : Entry) : List Byte :=
  [e.origin, e.number,
   flagByte e.isLocal + 2 * flagByte e.candidate + 4 * flagByte e.mismatchReported,
   match e.source with | none => 0xFF | some c => countByte c.val,
   e.cls.code, e.areas, e.label, e.state.code]
  ++ countBytes e.age
  ++ [countByte e.score, countByte e.demotions, countByte e.stagesFired, countByte e.refreshCount,
      match e.endCause with | none => 0xFF | some c => c.code]
  ++ (match e.endingSince with | none => [0, 0, 0, 0] | some t => timeBytes t)

/-- An entry is put among the ENDING entries by ending since, earliest first, behind those with an equal time. -/
def insertByEnding (now : Time) (e : Entry) : List Entry → List Entry
  | [] => [e]
  | o :: rest => if o.endedFor now < e.endedFor now then e :: o :: rest else o :: insertByEnding now e rest

/-- R175: the order of the report: the ON_AIR entry, the WAITING entries in their precedence order, the ENDING entries by ending
since. -/
def reportOrder (s : State) : List Entry :=
  let l := s.claims.entries
  l.filter (fun e => e.state == .onAir)
  ++ precedenceOrder l.length (l.filter fun e => e.state == .waiting)
  ++ (l.filter fun e => e.state == .ending).foldl (fun acc e => insertByEnding s.clock.stationTime e acc) []

/-- The CLAIMS report. -/
def claimsReport (s : State) : List Byte := countByte s.claims.entries.length :: (reportOrder s).flatMap Entry.bytes

/-- CLAIMS. -/
def execClaims (s : State) : Result :=
  atRunningPort (fun s => portReturns (Reply.accepted.code :: claimsReport s) s) s

/-! ### Peers (R139) -/

/-- The 10 bytes of a peer record. -/
def Peer.bytes (p : Peer) : List Byte :=
  [p.state.code, p.level.code,
   flagByte p.mark.isSome + 2 * flagByte p.lastEnded.isSome + 4 * flagByte p.fingerprint.isSome
     + 8 * flagByte (p.fingerprint.isSome && p.fingerprintMatch == some true),
   p.mark.getD 0, p.lastEnded.getD 0]
  ++ halfBytes (p.fingerprint.getD 0)
  ++ countBytes p.framesHeard
  ++ [countByte p.absences]

/-- The frames heard and absences of every entry become 0 (R123, R139). -/
def clearPeerCounts (s : State) : State :=
  s.setPeers ⟨⟨s.peers.toList.map fun p => { p with framesHeard := 0, absences := 0 }⟩, by simp⟩

/-- The PEERS report: the 31 entries in order of station number. -/
def peersReport (s : State) : List Byte := s.peers.toList.flatMap Peer.bytes

/-- PEERS. -/
def execPeers (s : State) : Result :=
  atRunningPort (fun s => portReturns (Reply.accepted.code :: peersReport s) (clearPeerCounts s)) s

/-! ### Cue history (R84) -/

/-- The 10 bytes of a history record. -/
def HistoryRecord.bytes (r : HistoryRecord) : List Byte :=
  timeBytes r.start ++ timeBytes (r.stop.getD 0) ++ [r.outcome.code, r.number.getD 0]

/-- A channel's part of the report: state, full mark, count and records. -/
def Channel.bytes (ch : Channel) : List Byte :=
  ch.state.code :: flagByte ch.full :: countByte ch.history.length :: ch.history.flatMap HistoryRecord.bytes

/-- R84: the closed records leave the list and the full mark is cleared. -/
def Channel.reported (ch : Channel) : Channel :=
  { ch with history := ch.history.filter fun r => r.outcome == .opened, full := false }

/-- Every channel changes in the same way. -/
def mapChannels (f : Channel → Channel) (s : State) : State :=
  s.setCues { s.cues with channels := ⟨⟨s.cues.channels.toList.map f⟩, by simp⟩ }

/-- The CUE_HISTORY report: channels 0 to 3. -/
def historyReport (s : State) : List Byte := s.cues.channels.toList.flatMap Channel.bytes

/-- CUE_HISTORY. -/
def execCueHistory (s : State) : Result :=
  atRunningPort (fun s => portReturns (Reply.accepted.code :: historyReport s) (mapChannels Channel.reported s)) s

/-! ### SET_NAME (R145) -/

/-- R145: the name becomes pending with the next version and a NAME frame is offered. -/
def setProgrammeName (text : Text) (s : State) : State :=
  let n : NameRecord :=
    { text := printableText text, version := s.names.newest.version + 1, origin := s.settings.station }
  answer .accepted (offer (.name n.version n.text) (s.setNames { s.names with pendingName := some n }))

/-- SET_NAME. -/
def execSetName (text : Text) (s : State) : Result := atRunningPort (setProgrammeName text) s

/-! ### CLEAR (R187) -/

/-- Step 1: the outgoing queue is emptied, a frame in transmission stopping after its current character (R121). -/
def clearQueue (s : State) : State :=
  s.setTx { s.tx with queue := [], backoff := none, renewal := false,
                      sending := s.tx.sending.map fun a => { a with stopping := true } }

/-- The live local entries, in admission order. -/
def liveLocals (s : State) : List Entry := s.claims.entries.filter fun e => e.isLocal && e.live

/-- Step 2: one RELEASE with repeat index 0 for each live local entry (R23). -/
def clearReleases (s : State) : State := (liveLocals s).foldl (fun s e => offer (.release e.number 0) s) s

/-- Step 3: the table is emptied, and the slot becomes none with the effects of R58. -/
def clearTable (s : State) : State :=
  let old : Byte := match s.selector.onAir with | none => 0 | some k => k.1
  let s := setEntries [] s
  let s := s.setSelector { onAir := none, guard := none, sequence := s.selector.sequence + 1, feedSelect := 0, feedEnable := false }
  postEvent .onAirChanged 0 0 old (s.setCells { s.cells with burst := 3 })

/-- R83: a channel at CLEAR. -/
def Channel.cleared (now : Time) (ch : Channel) : Channel := (ch.closeRecord now .cleared).toIdle

/-- Step 4: every cue source returns to IDLE (R83). -/
def clearCues (s : State) : State :=
  let s := mapChannels (Channel.cleared s.clock.stationTime) s
  s.setCues { s.cues with manual := .idle, manualNumber := none }

/-- Step 5: the Reference Monitor in LOST-HELD with the reference present goes to RETURNING (R168). -/
def clearReference (s : State) : State :=
  if s.reference.state = .lostHeld ∧ s.reference.present = true then
    s.setReference { s.reference with state := .returning, stableTimer := 0, returnDue := false, releaseMark := true }
  else s

/-- Step 7: the link counters and the stale and outside counters become 0. -/
def clearCounters (s : State) : State :=
  (s.setRx { s.rx with counters := countersAtStart }).setClaims { s.claims with stale := 0, outside := 0 }

/-- The nine steps of CLEAR, in order. -/
def clearAll (s : State) : State :=
  let removed := s.claims.entries.length
  let releases := (liveLocals s).length
  let s := clearReference (clearCues (clearTable (clearReleases (clearQueue s))))
  let s := activity (clearCounters (clearPeerCounts s))
  answer .accepted (postEvent .cleared (countByte removed) (countByte releases) 0 s)

/-- CLEAR. -/
def execClear (s : State) : Result := atRunningPort clearAll s

/-! ### RESTART and the commands that are not taken -/

/-- R172, R186: RESTART is answered, and its effect follows the rise of chip select. -/
def takeRestart (s : State) : State := s.setPort { s.port with output := [Reply.accepted.code], restartDue := true }

/-- RESTART. -/
def execRestart (s : State) : Result := atPort takeRestart s

/-- R189: a command byte outside the table is answered UNKNOWN; a byte inside it is not this command. (DESIGN CHOICE,
notes/assumptions/17.md.) -/
def refuseCode (code : Byte) (s : State) : State := if knownCommandCodes.contains code then s else answer .unknown s

/-- UNKNOWN_COMMAND. -/
def execUnknownCommand (code : Byte) (s : State) : Result := atPort (refuseCode code) s

/-- TRANSACTION_ABANDONED: no reply is sent and nothing changes (R171). -/
def execTransactionAbandoned (s : State) : Result := .next (portReturns [] s)

end Sys2Proof.Machine
end

