-- ==== Sys2Proof/Machine/Start.lean ====
section
/-! DEFINITION. The starts (R184, R186), the reset pin (R186), and the end of the configuration load (R181 to R185). -/

namespace Sys2Proof.Machine

/-- R184: every block takes its start values. What a start keeps: the waiting commands, the reset pin, the values on the cue inputs,
and the count of values drawn, one more. -/
def startAll (cause : StartCause) (mark : Byte) (s : State) : State :=
  { State.reset with
    pending := s.pending
    loader := { State.reset.loader with startCause := cause, resetHeld := s.loader.resetHeld }
    claims := { State.reset.claims with startMark := mark }
    cues := { State.reset.cues with inputs := s.cues.inputs }
    draws := s.draws + 1 }

/-- R24: the mark of a power-on: any value. -/
def anyMark (s : State) : Byte := BitVec.ofNat 8 (Config.random s.draws)

/-- R24, R184: the mark of any other start: any value but that of the previous start. (DESIGN CHOICE, notes/assumptions/1.md.)
-/
def otherMark (s : State) : Byte := s.claims.startMark + 1 + BitVec.ofNat 8 (Config.random s.draws % 255)

/-- POWER_ON (R184): a start with cause 0. -/
def powerOn (s : State) : State := startAll .powerOn (anyMark s) s

/-- POWER_ON. -/
def execPowerOn (s : State) : Result := .next (powerOn s)

/-- R121, R186: the part stops at once: a character in progress is cut, and the outputs are held deasserted or at 0. (The data
output: DEDUCED, notes/assumptions/16.md.) -/
def assertReset (s : State) : State :=
  let s := endAttempt (s.setLoader { s.loader with resetHeld := true })
  let s := s.setSelector { s.selector with feedSelect := 0, feedEnable := false }
  let s := s.setCells { s.cells with dataLine := false, bitClock := false }
  portReturns [] s

/-- RESET_PIN_ASSERT. -/
def execResetPinAssert (s : State) : Result := .next (assertReset s)

/-- R186: the release of the reset pin is a start with cause 1. -/
def releaseReset (s : State) : State :=
  if s.loader.resetHeld then
    let s := startAll .resetPin (otherMark s) s
    s.setLoader { s.loader with resetHeld := false }
  else s

/-- RESET_PIN_RELEASE. -/
def execResetPinRelease (s : State) : Result := .next (releaseReset s)

/-- R121, R186: at the rise of chip select after RESTART the part starts with cause 2; a link frame in transmission stops after
its current character, and the line state is kept (R109). (DEDUCED, notes/assumptions/13.md and 14.md.) -/
def restartNow (s : State) : State :=
  if s.port.restartDue then
    let t := startAll .restart (otherMark s) s
    (t.setTx { t.tx with sending := s.tx.sending.map fun a => { a with stopping := true }, driverEnable := s.tx.driverEnable }).setRx
      { t.rx with line := s.rx.line }
  else s

/-- RESTART_START. -/
def execRestartStart (s : State) : Result := unlessHeld restartNow s

/-! ### The end of the load -/

/-- R183: a check failed. -/
def failLoad (cause : Nat) (value : Byte) (s : State) : State :=
  postEvent .configFault (countByte cause) value 0 (s.setLoader { s.loader with runState := .configFault, faultCause := cause })

/-- R142, R185: the blocks take the values of an accepted image. -/
def takeImage (image : List Byte) (s : State) : State :=
  (s.setSettings (imageSettings image)).setNames
    { s.names with applied := { text := imageName image, version := 0, origin := 0 }, labels := imageLabels image,
                   labelSwap := imageLabelSwap image }

/-- R101, R109: the receiver as the run state becomes RUNNING. -/
def beginReception (s : State) : State := (rxWaitIdle s).setRx { (rxWaitIdle s).rx with line := .busy }

/-- R185: the run state becomes RUNNING, a PRESENCE carrying ACTIVE is offered and STARTED is posted. -/
def beginRunning (s : State) : State :=
  let s := beginReception (s.setLoader { s.loader with runState := .running })
  postEvent .started s.settings.station s.claims.startMark s.loader.startCause.code (offerPresence s)

/-- R181 to R185: the load ends with these bytes read, in STARTING. -/
def endLoad (image : List Byte) (s : State) : State :=
  if s.loader.runState = .starting then
    match imageFault image with
    | some (cause, value) => failLoad cause value s
    | none => beginRunning (takeImage image s)
  else s

/-- LOAD_COMPLETE. -/
def execLoadComplete (image : Vector Byte 203) (s : State) : Result := unlessHeld (endLoad image.toList) s

end Sys2Proof.Machine
end

