-- ==== Sys2Proof/Machine/Clock.lean ====
section
/-! DEFINITION. What happens when no command waits: the internal event that is due next, and, when none is, the middle of a bit or one
increase of station time (00_scope.md, Time bases; DESIGN CHOICE, notes/assumptions/3.md). -/

namespace Sys2Proof.Machine

/-- The claim of the first entry in admission order for which `due` says so, as a command. (The order: DESIGN CHOICE,
notes/assumptions/3.md.) -/
def dueEntry (due : Entry → Bool) (command : Entry → Instr) (s : State) : Option Instr :=
  (s.claims.entries.find? due).map command

/-- The lowest-numbered station whose absence deadline is reached (R129), so that of several reached at one increase the lowest becomes
ABSENT first. (The order: DESIGN CHOICE, notes/assumptions/3.md.) -/
def dueStation (s : State) : Option Byte :=
  ((List.range 31).map fun i => BitVec.ofNat 8 (i + 1)).find? fun p => deadlineReached s (s.peer p)

/-- The first of a list of possible commands. -/
def firstDue : List (Option Instr) → Option Instr
  | [] => none
  | some c :: _ => some c
  | none :: rest => firstDue rest

/-- A command, when it is due. -/
def dueWhen (due : Bool) (c : Instr) : Option Instr := if due then some c else none

/-- The samples of the values that stand on the cue inputs. -/
def presentSamples (s : State) : Instr :=
  .cueSample s.cues.inputs[0] s.cues.inputs[1] s.cues.inputs[2] s.cues.inputs[3] 0

/-- The internal events that are due in RUNNING, in the order in which the model takes them of itself. The spec gives the outcome of
each order and leaves the order open; a sender may command any of them earlier (notes/assumptions/3.md). -/
def runningDue (s : State) : Option Instr :=
  firstDue
    [dueWhen (attemptDue s) .backoffExpiry,
     dueWhen s.clock.sampleDue (presentSamples s),
     dueWhen s.clock.ageStepDue .ageStep,
     dueWhen (guardExpired s) .guardTimerExpiry,
     dueEntry (lifetimePassed s) (fun e => .claimLifetimeExpiry e.origin e.number) s,
     (dueStation s).map Instr.peerDeadlineReached,
     dueEntry (releaseRepeatDue s) (fun e => .releaseRepeat e.number) s,
     dueEntry (tailPassed s) (fun e => .endingTailExpiry e.origin e.number) s,
     dueEntry (refreshDue s) (fun e => .localRefresh e.number) s,
     dueWhen (s.presence.downshiftDue && s.presence.atLimit) .downshiftTest,
     dueWhen s.presence.periodicOfferDue .periodicPresence,
     dueWhen (s.names.applied.origin == s.settings.station && Config.nameRepeatSeconds ≤ s.names.repeatTimer) .nameRepeat]

/-- The internal event that is due next; none while the reset pin is held. -/
def nextDue (s : State) : Option Instr :=
  if s.loader.resetHeld then none
  else if s.cells.boundaryDue then some .cellBegin
  else if s.running then runningDue s
  else dueWhen s.clock.ageStepDue .ageStep

/-- One increase of station time: every 50th is an increase of the second count (00_scope.md, Time bases). -/
def Clock.advance (running : Bool) (c : Clock) : Clock :=
  if c.phase + 1 < Config.intervalsPerSecond then
    { c with stationTime := c.stationTime + 1, phase := c.phase + 1, atSecond := false, sampleDue := running }
  else
    { stationTime := c.stationTime + 1, secondCount := c.secondCount + 1, phase := 0, atSecond := true, ageStepDue := true,
      sampleDue := running }

/-- Station time goes on; it stands while the reset pin is held, since the part has stopped (R186). -/
def tick (s : State) : State :=
  if s.loader.resetHeld then s else s.setClock (s.clock.advance s.running)

/-- On backup timing the middle of the bit in progress is still to come (R157). -/
def midBitDue (s : State) : Bool := !s.loader.resetHeld && s.onBackup && s.cells.bitClock

/-- Time passes with no command waiting and no event due: up to the middle of the bit in progress on backup timing, which no row of
the table stands for, and otherwise to the next increase of station time. (DESIGN CHOICE, notes/assumptions/3.md.) -/
def passTime (s : State) : State := if midBitDue s then midBit s else tick s

end Sys2Proof.Machine
end

