-- ==== Sys2Proof/Machine/Dispatch.lean ====
section
/-! DEFINITION. The one dispatch from a command to its meaning. -/

namespace Sys2Proof.Machine

/-- The effect of one command on the state, as the command's row of spec/opcode_table.json and its rule say. -/
def exec (i : Instr) (s : State) : Host.Outcome State Fault Refusal :=
  match i with
  | .powerOn => Sys2Proof.Machine.execPowerOn s
  | .resetPinAssert => Sys2Proof.Machine.execResetPinAssert s
  | .resetPinRelease => Sys2Proof.Machine.execResetPinRelease s
  | .loadComplete image => Sys2Proof.Machine.execLoadComplete image s
  | .cueSample v0 v1 v2 v3 order => Sys2Proof.Machine.execCueSample v0 v1 v2 v3 order s
  | .ageStep => Sys2Proof.Machine.execAgeStep s
  | .claimLifetimeExpiry origin number => Sys2Proof.Machine.execClaimLifetimeExpiry origin number s
  | .endingTailExpiry origin number => Sys2Proof.Machine.execEndingTailExpiry origin number s
  | .localRefresh number => Sys2Proof.Machine.execLocalRefresh number s
  | .releaseRepeat number => Sys2Proof.Machine.execReleaseRepeat number s
  | .guardTimerExpiry => Sys2Proof.Machine.execGuardTimerExpiry s
  | .peerDeadlineReached station => Sys2Proof.Machine.execPeerDeadlineReached station s
  | .periodicPresence => Sys2Proof.Machine.execPeriodicPresence s
  | .downshiftTest => Sys2Proof.Machine.execDownshiftTest s
  | .nameRepeat => Sys2Proof.Machine.execNameRepeat s
  | .lineIdle => Sys2Proof.Machine.execLineIdle s
  | .strayCharacter value framingError => Sys2Proof.Machine.execStrayCharacter value framingError s
  | .badLengthCharacter value framingError => Sys2Proof.Machine.execBadLengthCharacter value framingError s
  | .assemblyAbandoned => Sys2Proof.Machine.execAssemblyAbandoned s
  | .discardedAssembly last framingError => Sys2Proof.Machine.execDiscardedAssembly last framingError s
  | .claimFrame last => Sys2Proof.Machine.execClaimFrame last s
  | .releaseFrame last => Sys2Proof.Machine.execReleaseFrame last s
  | .lapseFrame last => Sys2Proof.Machine.execLapseFrame last s
  | .presenceFrame last => Sys2Proof.Machine.execPresenceFrame last s
  | .nameFrame last => Sys2Proof.Machine.execNameFrame last s
  | .backoffExpiry => Sys2Proof.Machine.execBackoffExpiry s
  | .frameSent => Sys2Proof.Machine.execFrameSent s
  | .collision value framingError => Sys2Proof.Machine.execCollision value framingError s
  | .referenceEdge => Sys2Proof.Machine.execReferenceEdge s
  | .referenceGap => Sys2Proof.Machine.execReferenceGap s
  | .returnComplete => Sys2Proof.Machine.execReturnComplete s
  | .cellBegin => Sys2Proof.Machine.execCellBegin s
  | .status => Sys2Proof.Machine.execStatus s
  | .events => Sys2Proof.Machine.execEvents s
  | .claims => Sys2Proof.Machine.execClaims s
  | .peers => Sys2Proof.Machine.execPeers s
  | .cueHistory => Sys2Proof.Machine.execCueHistory s
  | .setName text => Sys2Proof.Machine.execSetName text s
  | .manualCueStart => Sys2Proof.Machine.execManualCueStart s
  | .manualCueStop => Sys2Proof.Machine.execManualCueStop s
  | .manualCueUnknown parameter => Sys2Proof.Machine.execManualCueUnknown parameter s
  | .clear => Sys2Proof.Machine.execClear s
  | .restart => Sys2Proof.Machine.execRestart s
  | .restartStart => Sys2Proof.Machine.execRestartStart s
  | .unknownCommand code => Sys2Proof.Machine.execUnknownCommand code s
  | .transactionAbandoned => Sys2Proof.Machine.execTransactionAbandoned s
  | .lineBusy => Sys2Proof.Machine.execLineBusy s
  | .startCharacter => Sys2Proof.Machine.execStartCharacter s
  | .assemblyCharacter value framingError => Sys2Proof.Machine.execAssemblyCharacter value framingError s
  | .backoffSlot => Sys2Proof.Machine.execBackoffSlot s
  | .characterReadBack => Sys2Proof.Machine.execCharacterReadBack s
  | .bitBoundary => Sys2Proof.Machine.execBitBoundary s

end Sys2Proof.Machine
end

