-- ==== Sys2Proof/Machine/Step.lean ====
section
/-! DEFINITION. The step: the command at the front of the queue is taken; when none waits, the internal event that is due, the
middle of a bit, or one increase of station time. -/

namespace Sys2Proof.Machine

/-- What happens while no command waits (DESIGN CHOICE, notes/assumptions/3.md). -/
def idleStep (s : State) : Host.Outcome State Fault Refusal :=
  match nextDue s with
  | some c => exec c s
  | none => .next (passTime s)

/-- One step of the part. -/
def step (s : State) : Host.Outcome State Fault Refusal :=
  match s.pending with
  | c :: rest => exec c (s.setPending rest)
  | [] => idleStep s

/-- The state with the command that a table word spells in front of the waiting commands; unchanged where the word spells none.
No row of the table has bits, so every word spells none. (DEDUCED, notes/assumptions/18.md.) -/
def State.withFetchWord (s : State) (nbits w : Nat) : State :=
  match decodeTableWord nbits w with
  | some c => s.setPending (c :: s.pending)
  | none => s

end Sys2Proof.Machine
end

