-- ==== Sys2Proof/Safety.lean ====
section
/-! DEFINITION. What counts as a sound state of the part, in the terms the claims use: the invariants the rules state, and the
conditions several claims share. -/

namespace Sys2Proof.Machine

/-! ### Frames of a claim -/

/-- The blocks that no claim, cue, link or presence event writes. -/
abbrev sameGround (s t : State) : Prop :=
  t.pending = s.pending ∧ t.loader = s.loader ∧ t.clock = s.clock ∧ t.settings = s.settings ∧ t.names = s.names
  ∧ t.reference = s.reference

/-- Two entries that differ in their state at most. -/
def Entry.alike (x y : Entry) : Prop := { x with state := .waiting } = { y with state := .waiting }

/-- The part takes commands on the site port: the reset pin is not held and no RESTART waits (R171, R186). -/
abbrev State.openRunning (s : State) : Prop :=
  s.loader.resetHeld = false ∧ s.port.restartDue = false ∧ s.loader.runState = .running

/-! ### The Claim Table and the slot (R1, R4, R43, R53, R59) -/

/-- No two entries share both origin and claim number (R1). -/
abbrev distinctClaims (s : State) : Prop := s.claims.entries.Pairwise fun x y => x.key ≠ y.key

/-- The on-air reference and the entry states agree, and at most one entry is ON_AIR (R43). -/
abbrev slotAgrees (s : State) : Prop :=
  (s.claims.entries.filter fun e => e.state == .onAir).map Entry.key = s.selector.onAir.toList

/-- Every entry's candidacy is that of R4, and an ON_AIR entry is a candidate (R43). -/
abbrev candidacyHolds (s : State) : Prop :=
  ∀ e ∈ s.claims.entries,
    e.candidate = s.settings.isCandidate e.areas e.origin ∧ (e.state = .onAir → e.candidate = true)

/-- An entry is local when its origin is the own station, and remote otherwise. -/
abbrev localityHolds (s : State) : Prop := ∀ e ∈ s.claims.entries, e.isLocal = (e.origin == s.settings.station)

/-- The feed lines show the ON_AIR entry's feed with enable asserted, or feed 0 with enable deasserted (R53, R186). -/
def feedLinesAgree (s : State) : Prop :=
  match s.selector.onAir with
  | some k =>
    if s.loader.resetHeld then s.selector.feedSelect = 0 ∧ s.selector.feedEnable = false
    else s.selector.feedSelect = s.settings.feedOf k.1 ∧ s.selector.feedEnable = true
  | none => s.selector.feedSelect = 0 ∧ s.selector.feedEnable = false

/-- The Claim Table and the slot are sound. -/
structure TableSound (s : State) : Prop where
  room : s.claims.entries.length ≤ Config.claimCapacity
  distinct : distinctClaims s
  slot : slotAgrees s
  candidacy : candidacyHolds s
  locality : localityHolds s
  lines : feedLinesAgree s
  idle : s.loader.runState ≠ .running → s.claims.entries = []

/-! ### The outgoing queue and the transmitter (R109, R111, R117) -/

/-- The frames behind the first are not in transmission, and the frames not in transmission stand by rank (R111). -/
abbrev queueOrdered (q : List Frame) : Prop :=
  (∀ f ∈ q.tail, f.inTransmission = false)
  ∧ (q.filter fun f => !f.inTransmission).Pairwise fun f g => f.body.rank ≤ g.body.rank

/-- At most one PRESENCE is held, and at most one CLAIM for one number outside transmission (R111, R112). -/
abbrev queueCoalesced (q : List Frame) : Prop :=
  (q.filter Frame.isPresence).length ≤ 1 ∧ ∀ n : Byte, (q.filter (Frame.isWaitingClaim n)).length ≤ 1

/-- The Link Transmitter is sound. -/
structure QueueSound (s : State) : Prop where
  room : s.tx.queue.length ≤ Config.queueCapacity
  ordered : queueOrdered s.tx.queue
  coalesced : queueCoalesced s.tx.queue
  attempts : ∀ f ∈ s.tx.queue, 1 ≤ f.attempt ∧ f.attempt ≤ Config.lastAttempt
  driver : s.tx.driverEnable = s.tx.sending.isSome
  idle : s.loader.runState ≠ .running → s.tx.queue = []

/-! ### The receiver (R102, R103) -/

/-- Nothing is held outside an assembly, and an assembly holds fewer characters than its length character announces. -/
def ReceiverSound (s : State) : Prop :=
  match s.rx.state, s.rx.length with
  | .assembling, some l => 3 ≤ l.toNat ∧ l.toNat ≤ 20 ∧ s.rx.buffer.length < l.toNat + 2
  | .assembling, none => s.rx.buffer = []
  | _, some _ => False
  | _, none => s.rx.buffer = [] ∧ s.rx.framing = false ∧ s.rx.own = false

/-! ### The cue histories (R65, R70, R81) -/

/-- A record is open. -/
def HistoryRecord.isOpen (r : HistoryRecord) : Bool := r.outcome == .opened

/-- One channel's record and history are sound: at most 8 records, an open one only as the newest and only in ACTIVE, an end on
every other; a claim number exactly in ACTIVE, a run start exactly in RUN. -/
structure ChannelSound (ch : Channel) : Prop where
  room : ch.history.length ≤ Config.historyCapacity
  openNewest : ∀ r ∈ ch.history.dropLast, r.isOpen = false
  openActive : ∀ r ∈ ch.history, r.isOpen = true → ch.state = .active
  ended : ∀ r ∈ ch.history, r.stop.isNone = r.isOpen
  number : ch.number.isSome = (ch.state == .active)
  runStart : ch.runStart.isSome = (ch.state == .run)

/-- Every channel is sound. -/
def HistorySound (s : State) : Prop := ∀ ch ∈ s.cues.channels.toList, ChannelSound ch

/-! ### Texts (R141) -/

/-- Every character is printable. -/
abbrev printableOnly (t : Text) : Prop := ∀ c ∈ t.toList, 0x20 ≤ c.toNat ∧ c.toNat ≤ 0x7E

/-- The text of a NAME frame is printable. -/
def FrameBody.printable (b : FrameBody) : Prop := ∀ v t, b = .name v t → printableOnly t

/-- Every text the part holds or sends consists of printable characters (R141). -/
structure TextsSound (s : State) : Prop where
  applied : printableOnly s.names.applied.text
  waiting : ∀ n, s.names.pendingName = some n → printableOnly n.text
  labels : ∀ t ∈ s.names.labels.toList, printableOnly t
  display : printableOnly s.cells.displayText
  queued : ∀ f ∈ s.tx.queue, f.body.printable

/-! ### Ranges of the counted quantities -/

/-- The counted fields of an entry lie in their ranges (chapter Claims and the Claim Table, The claim entry). -/
structure EntryRanges (e : Entry) : Prop where
  age : e.age ≤ 65535
  demotions : e.demotions ≤ 3
  stagesFired : e.stagesFired ≤ 4
  score : e.score ≤ 255
  refreshCount : e.refreshCount ≤ 255
  repeatsLeft : ∀ n, e.repeatsLeft = some n → n ≤ 2

/-- The counters of a channel lie in their ranges (chapter Cue Channels, Channel states). -/
structure ChannelRanges (ch : Channel) : Prop where
  runLength : ch.runLength ≤ 255
  highCount : ch.highCount ≤ 255
  offCount : ch.offCount ≤ 64

/-- The eleven link counters (R110). -/
def LinkCounters.all (c : LinkCounters) : List Nat :=
  [c.framesAccepted, c.framesSent, c.stray, c.truncated, c.framing, c.badCrc, c.unknownKind, c.malformed, c.duplicateStation,
   c.collisions, c.framesDropped]

/-- Every counted quantity of the spec lies in its range: with the off counts the configured counts they run to (R61), and with the
backoff count the attempt numbers it is drawn for (R115). -/
structure RangesSound (s : State) : Prop where
  entries : ∀ e ∈ s.claims.entries, EntryRanges e
  channels : ∀ ch ∈ s.cues.channels.toList, ChannelRanges ch
  offCounts : ∀ src ∈ s.settings.sources.toList, 1 ≤ src.nOff ∧ src.nOff ≤ 64
  counters : ∀ n ∈ s.rx.counters.all, n ≤ 65535
  peers : ∀ p ∈ s.peers.toList, p.framesHeard ≤ 65535 ∧ p.absences ≤ 255
  attempts : ∀ f ∈ s.tx.queue, 1 ≤ f.attempt ∧ f.attempt ≤ 5
  backoff : ∀ n, s.tx.backoff = some n → n ≤ 31
  gap : s.reference.gapTimer ≤ 5
  stable : s.reference.stableTimer ≤ 2000
  events : s.port.events.length ≤ Config.eventCapacity
  stale : s.claims.stale ≤ 65535
  outside : s.claims.outside ≤ 65535
  downshift : s.presence.downshiftTimer ≤ 540
  presence : s.presence.presenceTimer ≤ 60
  nameRepeat : s.names.repeatTimer ≤ 30
  backup : s.reference.backupSeconds ≤ 65535
  burst : s.cells.burst ≤ 3
  phase : s.clock.phase < 50

/-! ### Conditions that several claims share -/

/-- The last character `last` of frame `f` is about to complete an assembly of a RUNNING part: every earlier character has been
stored, no character had a framing error, and some character came from another station. -/
structure Completes (s : State) (f : Frame) (last : Byte) : Prop where
  running : s.running = true
  assembling : s.rx.state = .assembling
  length : s.rx.length = some f.lengthByte
  stored : s.rx.buffer ++ [last] = f.characters.drop 2
  clean : s.rx.framing = false
  foreign : s.rx.own = false
  sender : isStation f.origin = true
  peer : f.origin ≠ s.settings.station

/-- The sender is PRESENT and its stored mark is the frame's, so that the frame brings neither PEER_PRESENT nor a restart. -/
abbrev knownSender (s : State) (f : Frame) : Prop :=
  (s.peer f.origin).state = .present ∧ (s.peer f.origin).mark = some f.mark

/-- The peer's entry after a frame of it was heard (R124, steps 1, 2 and 4). -/
def heardPeer (s : State) (p : Byte) : Peer :=
  { s.peer p with
    state := .present, framesHeard := min ((s.peer p).framesHeard + 1) 65535, lastHeard := some s.clock.stationTime,
    deadline := some (s.clock.stationTime + BitVec.ofNat 32 (150 * (s.peer p).level.period)) }

/-- The receiver after an accepted frame's last character: WAIT_IDLE with nothing held, the line busy, the frame counted. -/
def heardReceiver (s : State) : Receiver :=
  { s.rx with
    line := .busy, state := .waitIdle, length := none, buffer := [], framing := false, own := false,
    counters := { s.rx.counters with framesAccepted := if s.rx.counters.framesAccepted < 65535 then
                                                         s.rx.counters.framesAccepted + 1 else 65535 } }

/-- The receiver after an assembly that is discarded, with these counters. -/
def emptiedReceiver (s : State) (counters : LinkCounters) : Receiver :=
  { s.rx with
    line := .busy, state := .waitIdle, length := none, buffer := [], framing := false, own := false, counters := counters }

/-- One more in a counter that saturates at 65535 (R110). -/
def plusOne (n : Nat) : Nat := if n < 65535 then n + 1 else 65535

/-- `Completes` for a frame given by its bytes, whose payload need not be one that a station sends; the sender is PRESENT with this
start mark. -/
structure CompletesRaw (s : State) (kind origin mark : Byte) (payload : List Byte) (last : Byte) : Prop where
  running : s.running = true
  assembling : s.rx.state = .assembling
  length : s.rx.length = some (BitVec.ofNat 8 (3 + payload.length))
  stored : s.rx.buffer ++ [last] = kind :: origin :: mark :: payload
    ++ halfBytes (crc16 (BitVec.ofNat 8 (3 + payload.length) :: kind :: origin :: mark :: payload))
  clean : s.rx.framing = false
  foreign : s.rx.own = false
  sender : isStation origin = true
  peer : origin ≠ s.settings.station
  present : (s.peer origin).state = .present
  known : (s.peer origin).mark = some mark

/-- What an accepted frame leaves whose payload is rejected: its sender is heard, and it is counted as accepted and as malformed
(R108). -/
def rejectedPayload (s : State) (origin : Byte) : State :=
  (s.setPeers (s.peers.setIfInBounds (origin.toNat - 1) (heardPeer s origin))).setRx
    { heardReceiver s with counters :=
      { (heardReceiver s).counters with malformed := plusOne s.rx.counters.malformed } }

/-- The site port after an event is posted (R176). -/
def portWith (r : EventRecord) (p : SitePort) : SitePort :=
  if p.events.length < 16 then { p with events := p.events ++ [r] } else { p with overflow := true }

/-- A channel after a validated run is recorded (R82). -/
def recorded (r : HistoryRecord) (ch : Channel) : Channel :=
  if ch.history.length < 8 then { ch with history := ch.history ++ [r] } else { ch with full := true }

/-- A channel whose open record is closed at `now` with this outcome (R82). -/
def recordClosed (now : Time) (outcome : RunOutcome) (ch : Channel) : Channel :=
  { ch with history := ch.history.map fun r =>
      if r.outcome = .opened then { r with stop := some now, outcome := outcome } else r }

/-- An entry that has moved to ENDING at `now` (R14); a local one has two release repeats left (R22). -/
def endedAs (cause : EndCause) (now : Time) (e : Entry) : Entry :=
  { e with state := .ending, endCause := some cause, endingSince := some now,
           repeatsLeft := if e.isLocal then some 2 else none }

/-- The events `l` become `l` and `last`, with at most ON_AIR_CHANGED records in between. -/
def postedLast (l : List EventRecord) (last : EventRecord) (l' : List EventRecord) : Prop :=
  ∃ changes : List EventRecord, (∀ r ∈ changes, r.kind = .onAirChanged) ∧ l' = l ++ changes ++ [last]

/-- The on-air reference does not name this entry while it is not ON_AIR (R43). -/
abbrev slotFits (s : State) (k : Byte × Byte) (e : Entry) : Prop := s.selector.onAir = some k → e.state = .onAir

/-- No entry that counts holds this origin and number: none at all, or one in ENDING with cause RESTARTED, which counts as absent
(R7). -/
abbrev countsAsNone (s : State) (k : Byte × Byte) : Prop :=
  ∀ e ∈ s.entry k, e.state = .ending ∧ e.endCause = some .restarted

/-- The characters of a frame behind its start character are received, one after the other, from another station. -/
def receiveAll : List Byte → State → Host.Outcome State Fault Refusal
  | [], s => .next s
  | c :: rest, s =>
    match exec (.assemblyCharacter c false) s with
    | .next t => receiveAll rest t
    | .fault r => .fault r
    | .refused r => .refused r

/-- The four samples of a CUE_SAMPLE, by channel. -/
def sampleOf (v0 v1 v2 v3 : Byte) (c : Fin 4) : Byte := #v[v0, v1, v2, v3][c]

/-- The net level of a sample of a cue source (R64). -/
def netLevel (src : SourceConfig) (v : Byte) : Nat := v.toNat - src.baseline.toNat

/-- The sample `v` of channel `c` begins a run or goes on with one, and validates it: with the sample counted, the run length is Nlo
or more and the high count Nhi or more (R66, R67, R69). -/
structure Validates (s : State) (c : Fin 4) (v : Byte) : Prop where
  state : s.cues.channels[c].state = .idle ∨ s.cues.channels[c].state = .run
  runLength : s.cues.channels[c].runLength ≤ 255
  highCount : s.cues.channels[c].highCount ≤ 255
  aboveLow : s.settings.sources[c.castSucc].lowT.toNat < netLevel s.settings.sources[c.castSucc] v
  long : s.settings.sources[c.castSucc].nLo ≤
    if s.cues.channels[c].state = .idle then 1 else min (s.cues.channels[c].runLength + 1) 255
  high : s.settings.sources[c.castSucc].nHi ≤
    min ((if s.cues.channels[c].state = .idle then 0 else s.cues.channels[c].highCount)
      + if s.settings.sources[c.castSucc].highT.toNat < netLevel s.settings.sources[c.castSucc] v then 1 else 0) 255

/-- The start of the run that a validating sample belongs to: this sample's time where the channel leaves IDLE with it (R66). -/
def runStartAt (now : Time) (ch : Channel) : Time := if ch.state = .idle then now else ch.runStart.getD now

/-- The victim of the first step of the search in a full table: of the remote entries in ENDING the one with the earliest ending
since, equal times going to the earlier in admission order (R16). -/
structure EndingVictim (s : State) (v : Entry) : Prop where
  full : s.claims.entries.length = 16
  held : v ∈ s.claims.entries
  remote : v.isLocal = false
  ending : v.state = .ending
  first : ∀ e ∈ s.claims.entries, e.state = .ending → e.isLocal = false → e ≠ v →
    e.endedFor s.clock.stationTime < v.endedFor s.clock.stationTime
    ∨ (e.endedFor s.clock.stationTime = v.endedFor s.clock.stationTime ∧ [v, e].Sublist s.claims.entries)

/-- The victim of the second step, with no entry in ENDING: of the remote entries in WAITING the one with the lowest score, equal
scores going to the later in admission order (R16). -/
structure WaitingVictim (s : State) (v : Entry) : Prop where
  full : s.claims.entries.length = 16
  held : v ∈ s.claims.entries
  remote : v.isLocal = false
  waiting : v.state = .waiting
  noEnding : ∀ e ∈ s.claims.entries, e.state ≠ .ending
  lowest : ∀ e ∈ s.claims.entries, e.state = .waiting → e.isLocal = false → e ≠ v →
    v.score < e.score ∨ (v.score = e.score ∧ [e, v].Sublist s.claims.entries)

/-- The entries that stay in the table when a place is made for a local claim: all of them while there is room, else all but the
victim (R16, R17). -/
def PlaceMade (s : State) (rest : List Entry) : Prop :=
  (s.claims.entries.length < 16 ∧ rest = s.claims.entries)
  ∨ ∃ v, (EndingVictim s v ∨ WaitingVictim s v) ∧ rest = s.claims.entries.filter fun e => e.key ≠ v.key

/-- The table is full and a local claim finds no victim: every entry is local or ON_AIR (R17). -/
abbrev noPlace (s : State) : Prop :=
  s.claims.entries.length = 16 ∧ ∀ e ∈ s.claims.entries, e.isLocal = true ∨ e.state = .onAir

/-- The claim number that a local claim takes: the first, from the next local claim number on, that no live local entry has
(R19). -/
structure NumberDrawn (s : State) (number : Byte) : Prop where
  passed : ∀ n : Byte, (n - s.claims.nextNumber).toNat < (number - s.claims.nextNumber).toNat →
    ∃ e ∈ s.claims.entries, e.isLocal = true ∧ e.state ≠ .ending ∧ e.number = n
  free : ∀ e ∈ s.claims.entries, e.isLocal = true → e.state ≠ .ending → e.number ≠ number

/-- What the creation of a local claim for cue source `c` with this number has made of `s`, when the entries `rest` stay in the
table: an entry in ENDING that has the number is freed (R19), the new entry with the fields of R20 stands last, the others differ in
their state at most, the next number follows, a CLAIM with refresh count 0 is queued or takes the place of one that waits (R20,
R112), and the creation is activity (R20, R134). -/
structure LocalClaimMade (s : State) (c : Fin 5) (number : Byte) (rest : List Entry) (t : State) : Prop where
  made : ∃ e, t.entry (s.settings.station, number) = some e
    ∧ e.alike
        { origin := s.settings.station, number := number, isLocal := true, source := some c, cls := s.settings.sources[c].cls,
          areas := s.settings.sources[c].areas, label := s.settings.sources[c].label,
          candidate := s.settings.isCandidate s.settings.sources[c].areas s.settings.station, state := .waiting, age := 0,
          lastRefresh := none, demotions := 0, stagesFired := 0,
          score := s.settings.score s.settings.sources[c].cls (sharedAreas s.settings.sources[c].areas s.settings.served) 0 true 0,
          endCause := none, endingSince := none, repeatsLeft := none, refreshCount := 1, mismatchReported := false,
          madeSecond := s.clock.secondCount, nextRefresh := s.clock.secondCount + 2 }
    ∧ e.state ≠ .ending ∧ (e.candidate = false → e.state = .waiting)
  keys : t.claims.entries.map Entry.key =
    (rest.map Entry.key).filter (fun k => k ≠ (s.settings.station, number)) ++ [(s.settings.station, number)]
  others : ∀ x ∈ rest, x.key ≠ (s.settings.station, number) → ∃ y, t.entry x.key = some y ∧ y.alike x
  table : t.claims = { s.claims with entries := t.claims.entries, nextNumber := number + 1 }
  queued : (∀ f ∈ s.tx.queue, f.isWaitingClaim number = false) → s.tx.queue.length < 8 →
    t.tx.queue.filter (Frame.isWaitingClaim number) =
      [⟨s.settings.station, s.claims.startMark,
        .claim number s.settings.sources[c].cls s.settings.sources[c].areas s.settings.sources[c].label 0, false, 1⟩]
  coalesced : ∀ (f : Frame) (cls : ClaimClass) (areas label : Byte) (k : Nat), f.body = .claim number cls areas label k →
    f.inTransmission = false → s.tx.queue.filter (Frame.isWaitingClaim number) = [f] →
    t.tx.queue.filter (Frame.isWaitingClaim number) = [{ f with body := .claim number cls areas label 0 }]
  active : t.presence = { level := .active, downshiftTimer := 0, presenceTimer := 0, downshiftDue := false }
  peers : t.peers = s.peers

/-- A channel of the Cue Front End is replaced. -/
def withChannel (c : Fin 4) (ch : Channel) (s : State) : State :=
  s.setCues { s.cues with channels := s.cues.channels.set c ch }

/-! ### Overrun stages -/

/-- The end cause that a stage's action gives an entry, if it ends it (R93 to R96). -/
def stageEnding : OverrunAction → Option EndCause
  | .nothing | .notify | .demote => none
  | .localEnd => some .localEnd
  | .lapse => some .lapsed

/-- Of the stages behind the stages fired, with their numbers, those that fire at this age: the stages that are on, in order, up to
the first whose hold is not reached, and none behind one that ends the entry (R89, R90). -/
def firingStages (age : Nat) : List (Nat × Stage) → List (Nat × Stage)
  | [] => []
  | (n, st) :: rest =>
    if st.hold = 0 then firingStages age rest
    else if age < st.hold then []
    else (n, st) :: if (stageEnding st.action).isSome then [] else firingStages age rest

/-- The entry is handed to the age step: it is live and was not made at this increase (R35). -/
abbrev stepped (s : State) (e : Entry) : Prop := e.state ≠ .ending ∧ e.madeSecond ≠ s.clock.secondCount

/-- An entry with the age and score of the age step (R35, R36). -/
def agedBy (s : State) (e : Entry) : Entry :=
  { e with age := min (e.age + 1) 65535,
           score := s.settings.score e.cls (sharedAreas e.areas s.settings.served) (min (e.age + 1) 65535) e.isLocal e.demotions }

/-- The entry as the age step leaves it when no stage fires: aged where it is stepped, else as it was. -/
def afterAge (s : State) (e : Entry) : Entry := if stepped s e then agedBy s e else e

/-- The stages that fire on a stepped entry in this age step, with their numbers (R89, R90). -/
def stagesDue (s : State) (e : Entry) : List (Nat × Stage) :=
  firingStages (min (e.age + 1) 65535) (([1, 2, 3, 4].zip s.settings.stages.toList).drop e.stagesFired)

/-- The cause with which the stages that fire end the entry, if one does. -/
def endingDue (s : State) (e : Entry) : Option EndCause := (stagesDue s e).getLast?.bind fun p => stageEnding p.2.action

/-- The stages fired of the entry behind the stages that fire. -/
def lastFired (s : State) (e : Entry) : Nat := ((stagesDue s e).getLast?.map Prod.fst).getD e.stagesFired

/-- An entry aged and behind the stages that fire on it: the last one's number, the demotions, at most 3, and the score that follows
from them (R89 to R92). -/
def supervisedBy (s : State) (e : Entry) : Entry :=
  agedBy s { e with stagesFired := lastFired s e,
                    demotions := min (e.demotions + ((stagesDue s e).filter fun p => p.2.action = .demote).length) 3 }

/-- The site port with the events of the stages that fire on the entry: an OVERRUN of each but NONE, and behind them LAPSE_SENT where
one of them lapses a remote entry (R89, R95). -/
def stagesPosted (s : State) (e : Entry) : SitePort :=
  let overruns := ((stagesDue s e).filter fun p => p.2.action ≠ .nothing).foldl
    (fun port p => portWith ⟨.overrun, s.clock.stationTime, e.origin, e.number, BitVec.ofNat 8 p.1⟩ port) s.port
  if e.isLocal = false ∧ endingDue s e = some .lapsed then
    portWith ⟨.lapseSent, s.clock.stationTime, e.origin, e.number, BitVec.ofNat 8 (lastFired s e)⟩ overruns
  else overruns

/-- What an ending of this cause by a stage does beside the entry, in an outgoing queue with two places free where it says so. A
remote entry: its number is offered to the last ended number of its origin, and LAPSE queues a LAPSE frame (R93, R95). A local
one: no peer changes, a RELEASE with repeat index 0 is queued, and its cue source is told (R94, R96, R74, R80). -/
structure EndedByStage (s : State) (e : Entry) (cause : EndCause) (t : State) : Prop where
  quiet : cause = .localEnd ∨ e.isLocal = true → ∀ f ∈ t.tx.queue, f.body.kindCode = 4 → f ∈ s.tx.queue
  cues : e.isLocal = false → t.cues = s.cues
  origin : e.isLocal = false → isStation e.origin = true → t.peer e.origin =
    { s.peer e.origin with lastEnded := nextLastEnded (s.peer e.origin).lastEnded e.number }
  others : ∀ p, p ≠ e.origin ∨ e.isLocal = true → t.peer p = s.peer p
  lapse : e.isLocal = false → cause = .lapsed → s.tx.queue.length < 7 →
    ∃ f ∈ t.tx.queue, f.body = .lapse e.origin e.number ∧ f.origin = s.settings.station ∧ f.mark = s.claims.startMark
  release : e.isLocal = true → s.tx.queue.length < 7 →
    ∃ f ∈ t.tx.queue, f.body = .release e.number 0 ∧ f.origin = s.settings.station
  channel : e.isLocal = true → ∀ c : Fin 4, e.source = some c.castSucc → s.cues.channels[c].state = .active →
    t.cues = (withChannel c
      { recordClosed s.clock.stationTime (if cause = .lapsed then .lapsed else .localEnd) s.cues.channels[c] with
        state := .blocked, number := none, offCount := 0 } s).cues
  manual : e.isLocal = true → e.source = some 4 → t.cues = { s.cues with manual := .idle, manualNumber := none }

/-! ### The on-air change -/

/-- The selector after an on-air change to this entry, or to none: the guard starts anew and the sequence number goes up by 1 (R50,
R53, R54). -/
def changedTo (shown : Option Entry) (s : State) : Selector :=
  { onAir := shown.map Entry.key
    guard := if s.settings.guardTime = 0 then none else some (s.clock.secondCount + s.settings.guardTime)
    sequence := s.selector.sequence + 1
    feedSelect := shown.elim 0 fun x => s.settings.feedOf x.origin
    feedEnable := shown.isSome }

/-- The ON_AIR_CHANGED event from an entry of this origin (R56). -/
def changeEvent (now : Time) (old : Byte) (shown : Option Entry) : EventRecord :=
  ⟨.onAirChanged, now, shown.elim 0 Entry.origin, shown.elim 0 Entry.number, old⟩

/-- X passes the preemption test against Y (R42, R48). -/
abbrev displaces (s : State) (x y : Entry) : Prop :=
  (x.cls = .alert ∧ y.cls ≠ .alert) ∨ min (y.score + s.settings.margin) 255 < x.score

/-- The best WAITING candidate of the aged table (R35, R46). -/
def bestAged (s : State) : Option Entry :=
  best ((s.claims.entries.map (afterAge s)).filter fun x => x.state == .waiting && x.candidate)

/-! ### The bit boundary -/

/-- The cell stream after a bit boundary: the next bit of the cell, or, after the fortieth and before the first cell of a start, a cell
boundary (R157, R162). -/
def nextBit (c : CellGenerator) : CellGenerator :=
  match c.bit with
  | some i =>
    if i < 39 then { c with bit := some (i + 1), dataLine := c.cell.getMsbD (i + 1), bitClock := true }
    else { c with boundaryDue := true, bitClock := false }
  | none => { c with boundaryDue := true, bitClock := false }

/-! ### The head of the outgoing queue -/

/-- A queue whose head has drawn its backoff count, or which is empty and has none (R115). -/
def backoffDrawn (q : List Frame) (backoff : Option Nat) : Prop :=
  match q with
  | [] => backoff = none
  | g :: _ => ∃ n, backoff = some n ∧ n < 2 ^ g.attempt

/-- The head `f` has left the queue `q` behind it, its attempt over: the transmitter becomes `tx`. Where `f` is a PRESENCE in
transmission and the renewal mark is set, the mark is cleared and a PRESENCE with the level held now is placed (R113, R115). -/
def headLeft (f : Frame) (q : List Frame) (s : State) (tx : Transmitter) : Prop :=
  let renewed := f.isPresence && f.inTransmission && s.tx.renewal
  let after := if renewed then
      insertFrame ⟨s.settings.station, s.claims.startMark, .presence s.presence.level s.settings.fingerprint, false, 1⟩ q
    else q
  ∃ backoff, backoffDrawn after backoff
    ∧ tx = { s.tx with queue := after, sending := none, driverEnable := false, backoff := backoff,
                       renewal := s.tx.renewal && !renewed }

/-- A PRESENCE at the head is the only one, in a queue of 8 frames at most (R111, R113). -/
abbrev presenceAlone (f : Frame) (q : List Frame) : Prop :=
  f.isPresence = true → (∀ h ∈ q, h.isPresence = false) ∧ q.length < 8

/-- The STATE cell with this entry on air (R154): on-air flag, class and waiting flag, the served areas, the backup flag and label,
the sequence number, and the check byte. -/
def stateCellWith (shown : Option Entry) (s : State) : BitVec 40 :=
  let waiting := s.claims.entries.any fun x => x.state == .waiting && x.candidate
  let slot : Nat := shown.elim 0 fun e => 8 + 2 * e.cls.rank
  let label : Nat := shown.elim 0 fun e => e.label.toNat
  let header : Byte := BitVec.ofNat 8 (0x10 + slot + if waiting then 1 else 0)
  let second : Byte := BitVec.ofNat 8 ((if s.reference.state = .locked then 0 else 128) + label)
  header ++ s.settings.served ++ second ++ s.selector.sequence ++ crc8 [header, s.settings.served, second, s.selector.sequence]

/-- The slot holds this entry, whose label code is one of the eight. -/
abbrev slotHolds (shown : Option Entry) (s : State) : Prop :=
  s.selector.onAir = shown.map Entry.key ∧ ∀ e, shown = some e → s.entry e.key = some e ∧ e.label.toNat ≤ 7

/-- The samples of the present increase are still to be taken, and channel `c` alone is enabled (R62, R63). -/
structure SamplesOnly (s : State) (c : Fin 4) : Prop where
  running : s.running = true
  due : s.clock.sampleDue = true
  enabled : (s.settings.sources[c.castSucc]).areas ≠ 0
  others : ∀ d : Fin 4, d ≠ c → (s.settings.sources[d.castSucc]).areas = 0

/-- The state in which the samples `v0` to `v3` have been taken and nothing has come of them. -/
def samplesTaken (v0 v1 v2 v3 : Byte) (s : State) : State :=
  (s.setClock { s.clock with sampleDue := false }).setCues { s.cues with inputs := #v[v0, v1, v2, v3] }

/-- The run length and high count of a channel after a sample above low (R66, R67). -/
def runAfter (ch : Channel) : Nat := if ch.state = .idle then 1 else min (ch.runLength + 1) 255

def highAfter (src : SourceConfig) (v : Byte) (ch : Channel) : Nat :=
  let high := if ch.state = .idle then 0 else ch.highCount
  if src.highT.toNat < netLevel src v then min (high + 1) 255 else high

/-- The sample `v` neither validates a run of the channel nor ends its cue. -/
def PlainSample (src : SourceConfig) (v : Byte) (ch : Channel) : Prop :=
  match ch.state with
  | .idle | .run => ch.runLength ≤ 255 ∧ ch.highCount ≤ 255
      ∧ (src.lowT.toNat < netLevel src v → runAfter ch < src.nLo ∨ highAfter src v ch < src.nHi)
  | .active => 1 ≤ src.nOff ∧ (netLevel src v ≤ src.lowT.toNat → ch.offCount + 1 < src.nOff)
  | .blocked => 1 ≤ src.nOff

/-- The sample `v` takes the channel out of IDLE (R66). -/
abbrev leavesIdle (src : SourceConfig) (v : Byte) (ch : Channel) : Prop := ch.state = .idle ∧ src.lowT.toNat < netLevel src v

/-- The channel after such a sample at time `now` (R66 to R68, R73, R76). -/
def sampledPlain (now : Time) (src : SourceConfig) (v : Byte) (ch : Channel) : Channel :=
  let idle := { ch with state := .idle, runLength := 0, highCount := 0, offCount := 0, runStart := none, number := none }
  if src.lowT.toNat < netLevel src v then
    match ch.state with
    | .idle => { ch with state := .run, runLength := runAfter ch, highCount := highAfter src v ch, runStart := some now }
    | .run => { ch with runLength := runAfter ch, highCount := highAfter src v ch }
    | .active | .blocked => { ch with offCount := 0 }
  else
    match ch.state with
    | .idle => ch
    | .run => idle
    | .active => { ch with offCount := ch.offCount + 1 }
    | .blocked => if src.nOff ≤ ch.offCount + 1 then idle else { ch with offCount := ch.offCount + 1 }

/-- An image passes the four checks of R181. -/
structure ImageAccepted (image : List Byte) : Prop where
  crc : crc16 (image.take 201) = halfOf (byteAt image 201) (byteAt image 202)
  mark : byteAt image 0 = 0x3C
  station : 1 ≤ (byteAt image 1).toNat ∧ (byteAt image 1).toNat ≤ 31
  served : byteAt image 2 ≠ 0

/-- A load may end: the run state is STARTING and the reset pin is not held. -/
abbrev State.loading (s : State) : Prop := s.loader.runState = .starting ∧ s.loader.resetHeld = false

end Sys2Proof.Machine
end

