-- ==== Sys2Proof/Certificates/Slice0/Obligations.lean ====
section
/-! DEFINITION. The statements for the provers. A title that names the spec's rules is stated of every state and operand that meets its
hypotheses; each completion statement gives the whole next state, or the fields the rule names and a frame. -/

open Sys2Proof Sys2Proof.Machine

/-! ### The machine -/

/-- A step with a command in front of the queue is that command's meaning on the state with the queue's rest. -/
def Obligations.StepTakesTheFrontCommand : Prop :=
  ∀ (c : Instr) (rest : List Instr) (s : State), step (s.setPending (c :: rest)) = exec c (s.setPending rest)

/-- No command stops the part, and none touches the commands that wait. That a command whose condition does not hold, or that is
ill-formed, is answered by a next state is the model's: notes/assumptions/4.md and 17.md; the waiting commands: 18.md. -/
def Obligations.EveryCommandAnswersAndLeavesTheQueue : Prop :=
  ∀ (c : Instr) (s : State), ∃ t, exec c s = .next t ∧ t.pending = s.pending

/-- With no command waiting and no internal event due, a step is one increase of station time; every 50th is an increase of the
second count. On backup timing, while the bit clock is high, the step is the middle of the bit: the bit clock falls, and nothing
else happens (R157). (The model's choice of what an empty queue does: notes/assumptions/3.md.) -/
def Obligations.IdleStepCountsStationTime : Prop :=
  (∀ s : State, s.pending = [] → nextDue s = none → s.loader.resetHeld = false → s.reference.state ≠ .locked →
     s.cells.bitClock = true → step s = .next (s.setCells { s.cells with bitClock := false }))
  ∧ ∀ s : State, s.pending = [] → nextDue s = none → s.loader.resetHeld = false →
    (s.reference.state = .locked ∨ s.cells.bitClock = false) →
    (s.clock.phase + 1 < 50 →
      step s = .next (s.setClock { s.clock with
        stationTime := s.clock.stationTime + 1, phase := s.clock.phase + 1, atSecond := false, sampleDue := s.running }))
    ∧ (50 ≤ s.clock.phase + 1 →
      step s = .next (s.setClock {
        stationTime := s.clock.stationTime + 1, secondCount := s.clock.secondCount + 1, phase := 0, atSecond := true,
        ageStepDue := true, sampleDue := s.running }))

/-- The values of R184 right after power-on: STARTING, both time bases 0, an empty table with next number 0, an empty slot at feed
0, every source IDLE with an empty history, an empty queue, zero counters, every peer UNKNOWN, ACTIVE, LOCKED, no event. The reset
state meets every invariant stated below. -/
def Obligations.ResetHoldsStartValuesAndInvariants : Prop :=
  (State.reset.loader.runState = .starting ∧ State.reset.clock.stationTime = 0 ∧ State.reset.clock.secondCount = 0
   ∧ State.reset.claims.entries = [] ∧ State.reset.claims.nextNumber = 0
   ∧ State.reset.selector = { onAir := none, guard := none, sequence := 0, feedSelect := 0, feedEnable := false }
   ∧ (∀ c : Fin 4, State.reset.cues.channels[c].state = .idle ∧ State.reset.cues.channels[c].history = [])
   ∧ State.reset.cues.manual = .idle ∧ State.reset.tx.queue = []
   ∧ State.reset.rx.counters = ⟨0, 0, 0, 0, 0, 0, 0, 0, 0, 0, 0⟩
   ∧ (∀ p : Fin 31, State.reset.peers[p].state = .unknown) ∧ State.reset.presence.level = .active
   ∧ State.reset.reference.state = .locked ∧ State.reset.port.events = [])
  ∧ (TableSound State.reset ∧ QueueSound State.reset ∧ ReceiverSound State.reset ∧ HistorySound State.reset
     ∧ TextsSound State.reset ∧ RangesSound State.reset)

/-! ### Invariants that every step keeps -/

/-- The Claim Table keeps its 16 places and distinct identities, the slot names its one ON_AIR entry, which is a candidate, and
the feed lines show its feed (R1, R43, R53). -/
def Obligations.EveryStepKeepsTableAndSlotSound : Prop := ∀ s t : State, TableSound s → step s = .next t → TableSound t

/-- The outgoing queue keeps its 8 places, its order and its coalescing, and driver enable is asserted just while an attempt is on
the line (R100, R111). -/
def Obligations.EveryStepKeepsTheQueueSound : Prop := ∀ s t : State, QueueSound s → step s = .next t → QueueSound t

/-- The receiver holds characters only in an assembly, and never more than its length character announces (R103). -/
def Obligations.EveryStepKeepsTheReceiverSound : Prop :=
  ∀ s t : State, ReceiverSound s → step s = .next t → ReceiverSound t

/-- Each channel's history keeps at most 8 records, at most one of them open, and that one the newest and only in ACTIVE (R81). -/
def Obligations.EveryStepKeepsHistoriesSound : Prop := ∀ s t : State, HistorySound s → step s = .next t → HistorySound t

/-- Every text the part holds or sends stays printable (R141). -/
def Obligations.EveryStepKeepsTextsPrintable : Prop := ∀ s t : State, TextsSound s → step s = .next t → TextsSound t

/-- Every counted quantity stays in its range: an entry's age, demotions, stages fired, score, refresh count and release repeats
left; a channel's run length, high count and off count, with the configured Noff in 1..64; the eleven link counters, the stale and
outside counters, and each peer's frames heard and absences; attempt numbers and the backoff count; the event count; the downshift,
presence and repeat timers; the gap and stable timers, the backup seconds and the burst count; and the intervals of a second
(R5, R29, R36, R61, R65, R110, R115, R123, R133, R146, R160, R163, R176). -/
def Obligations.EveryStepKeepsRanges : Prop := ∀ s t : State, RangesSound s → step s = .next t → RangesSound t

/-! ### Starts, the reset pin and the load (R180 to R186) -/

/-- Each of the three starts takes the start values; what a start keeps is the waiting commands, the values on the cue inputs
and the reset pin; after the reset pin and RESTART the mark differs from the previous one. RESTART keeps the line state, and a
frame on the line stops after its current character. The values of State.reset that the spec does not give, the draw of the
mark, and what becomes of the line state and of a frame on the line are the model's: notes/assumptions/1.md, 2.md, 13.md and
14.md. That power-on leaves the reset pin as it is, and acts while it is held, is the model's too: notes/assumptions/16.md. -/
def Obligations.StartsTakeTheStartValues : Prop :=
  (∀ s : State, ∃ m : Byte, exec .powerOn s = .next
    { State.reset with
      pending := s.pending, loader := { State.reset.loader with startCause := .powerOn, resetHeld := s.loader.resetHeld },
      claims := { State.reset.claims with startMark := m }, cues := { State.reset.cues with inputs := s.cues.inputs },
      draws := s.draws + 1 })
  ∧ (∀ s : State, s.loader.resetHeld = true → ∃ m : Byte, m ≠ s.claims.startMark ∧ exec .resetPinRelease s = .next
    { State.reset with
      pending := s.pending, loader := { State.reset.loader with startCause := .resetPin },
      claims := { State.reset.claims with startMark := m }, cues := { State.reset.cues with inputs := s.cues.inputs },
      draws := s.draws + 1 })
  ∧ (∀ s : State, s.loader.resetHeld = false → s.port.restartDue = true →
    ∃ m : Byte, m ≠ s.claims.startMark ∧ exec .restartStart s = .next
    { State.reset with
      pending := s.pending, loader := { State.reset.loader with startCause := .restart },
      claims := { State.reset.claims with startMark := m }, cues := { State.reset.cues with inputs := s.cues.inputs },
      tx := { State.reset.tx with sending := s.tx.sending.map fun a => { a with stopping := true },
                                  driverEnable := s.tx.driverEnable },
      rx := { State.reset.rx with line := s.rx.line }, draws := s.draws + 1 })

/-- The reset pin holds driver enable, the feed lines, attention, the data line, the bit clock and the port's data output
deasserted or at 0, and changes nothing else (R186). While the reset pin is held, every command but power-on and the pin's own
two leaves the part as it is, the port's data output at rest (R171, R186). That a command other than these changes nothing while
the pin is held, and that the data output then holds no byte, is the model's: notes/assumptions/16.md. -/
def Obligations.ResetPinHoldsThePart : Prop :=
  (∀ s : State, exec .resetPinAssert s = .next
     { s with
       loader := { s.loader with resetHeld := true }
       tx := { s.tx with sending := none, driverEnable := false }
       selector := { s.selector with feedSelect := 0, feedEnable := false }
       cells := { s.cells with dataLine := false, bitClock := false }
       port := { s.port with output := [] } }
   ∧ ∀ t, exec .resetPinAssert s = .next t → t.attention = false)
  ∧ (∀ (c : Instr) (s : State), s.loader.resetHeld = true → c ≠ .powerOn → c ≠ .resetPinAssert → c ≠ .resetPinRelease →
       exec c s = .next s ∨ exec c s = .next (s.setPort { s.port with output := [] }))

/-- The loader makes its four checks in order: the first that fails ends the load in CONFIG_FAULT with its cause and posts
CONFIG_FAULT, and an image that passes all four brings RUNNING and posts STARTED (R181, R179). A load whose image fails a check
changes the run state, the fault cause and the event queue, and nothing else (R183). -/
def Obligations.LoadChecksInOrder : Prop :=
  (∀ (image : Vector Byte 203) (s : State), s.loading → s.port.events.length < 16 → s.tx.queue = [] →
     let b := byteAt image.toList
     let verdict : RunState × Nat × EventRecord :=
       if crc16 (image.toList.take 201) ≠ halfOf (b 201) (b 202) then
         (.configFault, 1, ⟨.configFault, s.clock.stationTime, 1, 0, 0⟩)
       else if b 0 ≠ 0x3C then (.configFault, 2, ⟨.configFault, s.clock.stationTime, 2, b 0, 0⟩)
       else if (b 1).toNat < 1 ∨ 31 < (b 1).toNat then (.configFault, 3, ⟨.configFault, s.clock.stationTime, 3, b 1, 0⟩)
       else if b 2 = 0 then (.configFault, 4, ⟨.configFault, s.clock.stationTime, 4, 0, 0⟩)
       else (.running, s.loader.faultCause,
             ⟨.started, s.clock.stationTime, b 1, s.claims.startMark, s.loader.startCause.code⟩)
     ∃ t, exec (.loadComplete image) s = .next t ∧ t.loader.runState = verdict.1 ∧ t.loader.faultCause = verdict.2.1
       ∧ t.port.events = s.port.events ++ [verdict.2.2])
  ∧ (∀ (image : Vector Byte 203) (s : State), s.loading → ¬ ImageAccepted image.toList →
       ∃ cause events overflow, exec (.loadComplete image) s = .next
         { s with loader := { s.loader with runState := .configFault, faultCause := cause }
                  port := { s.port with events := events, overflow := overflow } })

/-- An accepted image gives each block its clamped values (R182). -/
def Obligations.AcceptedImageIsClamped : Prop :=
  ∀ (image : Vector Byte 203) (s : State), s.loading → ImageAccepted image.toList →
    let b := byteAt image.toList
    let n := fun i => (b i).toNat
    ∃ t, exec (.loadComplete image) s = .next t
      ∧ t.settings.station = b 1 ∧ t.settings.served = b 2 ∧ t.settings.autoReturn = (b 3).getLsbD 0
      ∧ t.names.labelSwap = (b 3).getLsbD 1
      ∧ t.settings.fingerprint = crc16 ((image.toList.drop 35).take 25)
      ∧ (∀ i : Fin 31, t.settings.feedMap[i] = if n (4 + i.val) ≤ 15 then BitVec.ofNat 4 (n (4 + i.val)) else 0)
      ∧ t.settings.weightRoutine = n 35 ∧ t.settings.weightTraffic = n 36 ∧ t.settings.weightUrgent = n 37
      ∧ t.settings.weightAlert = n 38 ∧ t.settings.areaStep = min (n 39) 31 ∧ t.settings.ageShift = n 40
      ∧ t.settings.ageCap = n 41 ∧ t.settings.localBonus = min (n 42) 63 ∧ t.settings.demoteStep = min (n 43) 127
      ∧ t.settings.margin = n 44 ∧ t.settings.guardTime = min (n 45) 10
      ∧ t.settings.lifetime = max 3 (min (n 46) 30) ∧ t.settings.tail = max 2 (min (n 47) 60)
      ∧ (∀ i : Fin 4,
          t.settings.stages[i].hold =
            (if n (48 + 2 * i.val) * 256 + n (49 + 2 * i.val) = 0 then 0
             else ((List.range (i.val + 1)).map fun j => n (48 + 2 * j) * 256 + n (49 + 2 * j)).foldl max 0)
          ∧ t.settings.stages[i].action = actionOfCode (b (56 + i.val)))
      ∧ (∀ c : Fin 5,
          let x := t.settings.sources[c]
          x.baseline = b (60 + 9 * c.val) ∧ x.lowT = b (61 + 9 * c.val) ∧ x.highT = b (62 + 9 * c.val)
          ∧ x.nLo = n (63 + 9 * c.val) % 64 + 1 ∧ x.nHi = n (64 + 9 * c.val) % 64 + 1 ∧ x.nOff = n (65 + 9 * c.val) % 64 + 1
          ∧ x.cls.rank = min (n (66 + 9 * c.val)) 3 ∧ x.areas = b (67 + 9 * c.val)
          ∧ x.label = if n (68 + 9 * c.val) ≤ 7 then b (68 + 9 * c.val) else 0)
      ∧ (∀ i : Fin 12, t.names.applied.text[i] =
          if 0x20 ≤ n (189 + i.val) ∧ n (189 + i.val) ≤ 0x7E then b (189 + i.val) else 0x20)
      ∧ (∀ (k : Fin 7) (i : Fin 12), t.names.labels[k][i] =
          if 0x20 ≤ n (105 + 12 * k.val + i.val) ∧ n (105 + 12 * k.val + i.val) ≤ 0x7E
          then b (105 + 12 * k.val + i.val) else 0x20)

/-- At the move to RUNNING the part offers its first PRESENCE, carrying ACTIVE, the receiver waits for an idle line, and the
initial name is applied with version 0 and origin 0; the claims, the slot, the cues, the peers, the reference, the cells and the
time bases stand as they were (R185). The draw is the model's: notes/assumptions/1.md. -/
def Obligations.AcceptedLoadStartsService : Prop :=
  ∀ (image : Vector Byte 203) (s : State), s.loading → ImageAccepted image.toList → s.tx.queue = [] →
    s.presence.level = .active →
    ∃ t, exec (.loadComplete image) s = .next t
      ∧ (∃ d, t.tx = { s.tx with
            queue := [⟨byteAt image.toList 1, s.claims.startMark,
                       .presence .active (crc16 ((image.toList.drop 35).take 25)), false, 1⟩]
            backoff := some d } ∧ d < 2)
      ∧ t.presence = { s.presence with presenceTimer := 0 }
      ∧ t.rx = { s.rx with line := .busy, state := .waitIdle, length := none, buffer := [], framing := false, own := false }
      ∧ t.names.applied.version = 0 ∧ t.names.applied.origin = 0 ∧ t.names.pendingName = s.names.pendingName
      ∧ t.names.repeatTimer = s.names.repeatTimer
      ∧ t.loader = { s.loader with runState := .running }
      ∧ t.claims = s.claims ∧ t.selector = s.selector ∧ t.cues = s.cues ∧ t.peers = s.peers ∧ t.cells = s.cells
      ∧ t.reference = s.reference ∧ t.clock = s.clock ∧ t.pending = s.pending ∧ t.port.output = s.port.output
      ∧ t.port.restartDue = s.port.restartDue

/-! ### Cue channels (R62 to R76) -/

/-- With every channel disabled, a sample changes nothing but the record that it was taken (R62). In IDLE a sample that is not
above low changes nothing, and one above low starts a run, which is activity: the level is ACTIVE with both timers 0, and the
claims, the slot, the cells and the peers stand (R66). -/
def Obligations.SamplesOfIdleChannels : Prop :=
  (∀ (v0 v1 v2 v3 : Byte) (order : Fin 24) (s : State), s.running = true → s.clock.sampleDue = true →
     (∀ d : Fin 4, (s.settings.sources[d.castSucc]).areas = 0) →
     exec (.cueSample v0 v1 v2 v3 order) s = .next (samplesTaken v0 v1 v2 v3 s))
  ∧ (∀ (v0 v1 v2 v3 : Byte) (order : Fin 24) (c : Fin 4) (s : State), SamplesOnly s c →
       let src := s.settings.sources[c.castSucc]
       let ch := s.cues.channels[c]
       let net := (sampleOf v0 v1 v2 v3 c).toNat - src.baseline.toNat
       let high := if src.highT.toNat < net then 1 else 0
       ch.state = .idle →
       (net ≤ src.lowT.toNat → exec (.cueSample v0 v1 v2 v3 order) s = .next (samplesTaken v0 v1 v2 v3 s))
       ∧ (src.lowT.toNat < net → (1 < src.nLo ∨ high < src.nHi) →
           ∃ t, exec (.cueSample v0 v1 v2 v3 order) s = .next t
             ∧ t.cues = (withChannel c { ch with state := .run, runLength := 1, highCount := high,
                                                 runStart := some s.clock.stationTime } (samplesTaken v0 v1 v2 v3 s)).cues
             ∧ t.presence = { level := .active, downshiftTimer := 0, presenceTimer := 0, downshiftDue := false }
             ∧ sameGround (samplesTaken v0 v1 v2 v3 s) t ∧ t.claims = s.claims ∧ t.selector = s.selector ∧ t.cells = s.cells
             ∧ t.peers = s.peers))

/-- In RUN a sample that is not above low aborts the run, with no claim, no record, no event and no activity (R68). In RUN a
sample above low increases the run length, and the high count when it is high, both saturating at 255; while the validation test
is not met, nothing else happens (R67, R69). With several channels enabled, in any state, where no sample validates a run or ends a
cue, each enabled channel moves by its own sample alone, whatever the order in which the samples are taken, and a disabled one
stands; a channel that leaves IDLE is activity, and without one nothing else happens (R62, R63, R66 to R68, R73, R76). That the
order is an operand is the model's: notes/assumptions/8.md. -/
def Obligations.SamplesOfARun : Prop :=
  (∀ (v0 v1 v2 v3 : Byte) (order : Fin 24) (c : Fin 4) (s : State), SamplesOnly s c →
     let src := s.settings.sources[c.castSucc]
     let ch := s.cues.channels[c]
     ch.state = .run → (sampleOf v0 v1 v2 v3 c).toNat - src.baseline.toNat ≤ src.lowT.toNat →
     exec (.cueSample v0 v1 v2 v3 order) s = .next
       (withChannel c { ch with state := .idle, runLength := 0, highCount := 0, offCount := 0, runStart := none, number := none }
         (samplesTaken v0 v1 v2 v3 s)))
  ∧ (∀ (v0 v1 v2 v3 : Byte) (order : Fin 24) (c : Fin 4) (s : State), SamplesOnly s c →
       let src := s.settings.sources[c.castSucc]
       let ch := s.cues.channels[c]
       let net := (sampleOf v0 v1 v2 v3 c).toNat - src.baseline.toNat
       let run := min (ch.runLength + 1) 255
       let high := if src.highT.toNat < net then min (ch.highCount + 1) 255 else ch.highCount
       ch.state = .run → ch.runLength ≤ 255 → ch.highCount ≤ 255 → src.lowT.toNat < net → (run < src.nLo ∨ high < src.nHi) →
       exec (.cueSample v0 v1 v2 v3 order) s = .next
         (withChannel c { ch with runLength := run, highCount := high } (samplesTaken v0 v1 v2 v3 s)))
  ∧ (∀ (v0 v1 v2 v3 : Byte) (order : Fin 24) (s : State), s.running = true → s.clock.sampleDue = true →
       let src := fun c : Fin 4 => s.settings.sources[c.castSucc]
       let v := sampleOf v0 v1 v2 v3
       (∀ c : Fin 4, (src c).areas ≠ 0 → PlainSample (src c) (v c) s.cues.channels[c]) →
       let leaves : Prop := ∃ c : Fin 4, (src c).areas ≠ 0 ∧ leavesIdle (src c) (v c) s.cues.channels[c]
       let moved := (samplesTaken v0 v1 v2 v3 s).setCues { s.cues with
         inputs := #v[v0, v1, v2, v3]
         channels := Vector.ofFn fun c : Fin 4 =>
           if (src c).areas = 0 then s.cues.channels[c] else sampledPlain s.clock.stationTime (src c) (v c) s.cues.channels[c] }
       (¬ leaves → exec (.cueSample v0 v1 v2 v3 order) s = .next moved)
       ∧ (leaves → ∃ t, exec (.cueSample v0 v1 v2 v3 order) s = .next t ∧ t.cues = moved.cues
           ∧ t.presence = { level := .active, downshiftTimer := 0, presenceTimer := 0, downshiftDue := false }
           ∧ sameGround moved t ∧ t.claims = s.claims ∧ t.selector = s.selector ∧ t.cells = s.cells ∧ t.peers = s.peers))

/-- A run that is validated while a place can be made in the table makes a local claim: the entry has the fields the spec gives
it, its number is held by the ACTIVE channel, and an open record is written, or the full mark set when the list holds 8 records
(R20, R70, R82). The number is the next local claim number, or behind it the first that no live local entry has; the next number
follows it, and an own entry in ENDING that has the number is freed first, its release repeats with it (R19). The validating
sample need not be high, and may be the one that leaves IDLE (R66, R69). A CLAIM frame with refresh count 0 is queued for it, or
the count of a CLAIM that waits for the number becomes 0 (R20, R112). While the table has room no other entry leaves for it; in a
full table the remote entry in ENDING with the earliest ending since, or with none in ENDING the remote WAITING entry with the
lowest score, ties by admission order, makes the place, whatever the scores, and leaves no trace (R17, R18). Two runs validated by
one sample take consecutive numbers, in either assignment: the order in which the samples are taken decides which channel has the
lower one (R72). That the order is an operand is the model's: notes/assumptions/8.md. The last two fields of the entry are the
model's own: notes/assumptions/19.md. -/
def Obligations.ValidatedRunMakesALocalClaim : Prop :=
  (∀ (v0 v1 v2 v3 : Byte) (order : Fin 24) (c : Fin 4) (number : Byte) (rest : List Entry) (s : State), SamplesOnly s c →
     Validates s c (sampleOf v0 v1 v2 v3 c) → distinctClaims s → localityHolds s → NumberDrawn s number → PlaceMade s rest →
     let ch := s.cues.channels[c]
     ∃ t, exec (.cueSample v0 v1 v2 v3 order) s = .next t ∧ LocalClaimMade s c.castSucc number rest t
       ∧ t.cues = (withChannel c
           { recorded ⟨runStartAt s.clock.stationTime ch, none, .opened, some number⟩ ch with
             state := .active, runLength := 0, highCount := 0, offCount := 0, runStart := none, number := some number }
           (samplesTaken v0 v1 v2 v3 s)).cues
       ∧ sameGround (samplesTaken v0 v1 v2 v3 s) t)
  ∧ (∀ (v0 v1 v2 v3 : Byte) (c d : Fin 4) (s : State), c ≠ d → s.running = true → s.clock.sampleDue = true →
       (∀ x : Fin 4, (s.settings.sources[x.castSucc]).areas ≠ 0 ↔ x = c ∨ x = d) →
       Validates s c (sampleOf v0 v1 v2 v3 c) → Validates s d (sampleOf v0 v1 v2 v3 d) → distinctClaims s → localityHolds s →
       let n := s.claims.nextNumber
       (∀ e ∈ s.claims.entries, e.isLocal = true → e.number ≠ n ∧ e.number ≠ n + 1) → s.claims.entries.length < 15 →
       let takes := fun (first second : Fin 4) (order : Fin 24) => ∃ t, exec (.cueSample v0 v1 v2 v3 order) s = .next t
         ∧ t.cues.channels[first].state = .active ∧ t.cues.channels[first].number = some n
         ∧ t.cues.channels[second].state = .active ∧ t.cues.channels[second].number = some (n + 1)
         ∧ t.claims.nextNumber = n + 2
         ∧ t.claims.entries.map Entry.key =
             s.claims.entries.map Entry.key ++ [(s.settings.station, n), (s.settings.station, n + 1)]
       (∃ order, takes c d order) ∧ (∃ order, takes d c order) ∧ (∀ order, takes c d order ∨ takes d c order))

/-- A run that is validated while all sixteen places are held by ON_AIR and local entries that are not to be taken is refused: the
channel is BLOCKED, a REFUSED record is written, or the full mark set when the list holds 8 records, and CLAIM_REFUSED is posted, or
the overflow flag set when the event queue holds 16; no number is used and no CLAIM frame is queued (R17, R71, R82, R176). Where the
sample leaves IDLE, that is activity, and nothing else happens beside it (R66). -/
def Obligations.RefusedRunBlocksTheChannel : Prop :=
  ∀ (v0 v1 v2 v3 : Byte) (order : Fin 24) (c : Fin 4) (s : State), SamplesOnly s c →
    Validates s c (sampleOf v0 v1 v2 v3 c) →
    let src := s.settings.sources[c.castSucc]
    let ch := s.cues.channels[c]
    s.claims.entries.length = 16 → (∀ e ∈ s.claims.entries, e.isLocal = true ∨ e.state = .onAir) →
    let blocked := withChannel c
      { recorded ⟨runStartAt s.clock.stationTime ch, some s.clock.stationTime, .refused, none⟩ ch with
        state := .blocked, runLength := 0, highCount := 0, offCount := 0, runStart := none, number := none }
      (samplesTaken v0 v1 v2 v3 s)
    let refused := portWith ⟨.claimRefused, s.clock.stationTime, BitVec.ofNat 8 c.val, src.cls.code, src.areas⟩ s.port
    (ch.state = .run → exec (.cueSample v0 v1 v2 v3 order) s = .next (blocked.setPort refused))
    ∧ (ch.state = .idle → ∃ t, exec (.cueSample v0 v1 v2 v3 order) s = .next t
        ∧ t.cues = blocked.cues ∧ t.claims = s.claims ∧ t.selector = s.selector ∧ t.peers = s.peers ∧ t.cells = s.cells
        ∧ t.presence = { level := .active, downshiftTimer := 0, presenceTimer := 0, downshiftDue := false }
        ∧ (s.tx.queue.length < 8 → t.port = refused)
        ∧ (∀ f ∈ t.tx.queue, f.isPresence = false → f ∈ s.tx.queue) ∧ sameGround (samplesTaken v0 v1 v2 v3 s) t)

/-- In ACTIVE the off count goes up with each sample that is not above low and returns to 0 with each that is; nothing else
happens before it reaches Noff (R73). In BLOCKED it does the same, and at Noff the channel is IDLE, with no claim and no activity
(R76). In ACTIVE the sample that brings the off count to Noff ends the cue: the claim moves to ENDING with cause RELEASED and two
release repeats left, a RELEASE with repeat index 0 is queued, the open record is closed with outcome RELEASED at this sample, and
the channel is IDLE; the ending is activity (R73, R14, R22). The RELEASE is stated of an outgoing queue with a place free. -/
def Obligations.SamplesOfActiveAndBlocked : Prop :=
  (∀ (v0 v1 v2 v3 : Byte) (order : Fin 24) (c : Fin 4) (s : State), SamplesOnly s c →
     let src := s.settings.sources[c.castSucc]
     let ch := s.cues.channels[c]
     let quiet : Prop := (sampleOf v0 v1 v2 v3 c).toNat - src.baseline.toNat ≤ src.lowT.toNat
     let next := fun ch' => exec (.cueSample v0 v1 v2 v3 order) s = .next (withChannel c ch' (samplesTaken v0 v1 v2 v3 s))
     1 ≤ src.nOff → (ch.state = .active ∨ ch.state = .blocked) →
     (¬ quiet → next { ch with offCount := 0 })
     ∧ (quiet → ch.offCount + 1 < src.nOff → next { ch with offCount := ch.offCount + 1 })
     ∧ (quiet → src.nOff ≤ ch.offCount + 1 → ch.state = .blocked →
         next { ch with state := .idle, runLength := 0, highCount := 0, offCount := 0, runStart := none, number := none }))
  ∧ (∀ (v0 v1 v2 v3 : Byte) (order : Fin 24) (c : Fin 4) (number : Byte) (e : Entry) (s : State), SamplesOnly s c →
       let src := s.settings.sources[c.castSucc]
       let ch := s.cues.channels[c]
       ch.state = .active → ch.number = some number →
       (sampleOf v0 v1 v2 v3 c).toNat - src.baseline.toNat ≤ src.lowT.toNat → src.nOff ≤ ch.offCount + 1 →
       distinctClaims s → s.entry (s.settings.station, number) = some e → e.isLocal = true → e.state ≠ .ending →
       slotFits s (s.settings.station, number) e →
       ∃ t, exec (.cueSample v0 v1 v2 v3 order) s = .next t
         ∧ t.entry (s.settings.station, number) = some
             { e with state := .ending, endCause := some .released, endingSince := some s.clock.stationTime, repeatsLeft := some 2 }
         ∧ t.cues = (withChannel c
             { ch with state := .idle, runLength := 0, highCount := 0, offCount := 0, runStart := none, number := none,
                       history := ch.history.map fun r =>
                         if r.outcome = .opened then { r with stop := some s.clock.stationTime, outcome := .released } else r }
             (samplesTaken v0 v1 v2 v3 s)).cues
         ∧ t.presence = { level := .active, downshiftTimer := 0, presenceTimer := 0, downshiftDue := false }
         ∧ (s.tx.queue.length < 8 → ∃ g ∈ t.tx.queue, g.body = .release number 0 ∧ g.origin = s.settings.station)
         ∧ sameGround (samplesTaken v0 v1 v2 v3 s) t ∧ t.peers = s.peers
         ∧ (∀ k, k ≠ (s.settings.station, number) →
             (∀ x, s.entry k = some x → ∃ y, t.entry k = some y ∧ y.alike x) ∧ (s.entry k = none → t.entry k = none)))

/-! ### The manual cue (R77 to R80) -/

/-- A manual cue start: BUSY in ACTIVE; REFUSED with an empty area set, and in a full table whose entries are all local or ON_AIR,
source 4 staying IDLE: nothing changes but the activity of the command, and no CLAIM_REFUSED is posted (R78, R17, R77). A manual cue
start in IDLE with areas configured, for which a place can be made, is answered ACCEPTED: the claim of source 4 is made with the
number drawn for it, in the place of a remote entry of a full table, and source 4 is ACTIVE and holds the number (R78, R17, R19,
R20).
The last two fields of the entry are the model's own: notes/assumptions/19.md. -/
def Obligations.ManualCueStarts : Prop :=
  (∀ s : State, s.openRunning →
     (s.cues.manual = .active ∨ (s.settings.sources[(4 : Fin 5)]).areas = 0 ∨ noPlace s) →
     ∃ t, exec .manualCueStart s = .next t
       ∧ t.port.output = [if s.cues.manual = .active then 0xA1 else 0xA3]
       ∧ (∀ r ∈ t.port.events, r.kind = .claimRefused → r ∈ s.port.events)
       ∧ (s.tx.queue.length < 8 → t.port.events = s.port.events)
       ∧ (∀ f ∈ t.tx.queue, f.isPresence = false → f ∈ s.tx.queue)
       ∧ t.presence = { level := .active, downshiftTimer := 0, presenceTimer := 0, downshiftDue := false }
       ∧ sameGround s t ∧ t.claims = s.claims ∧ t.selector = s.selector ∧ t.cues = s.cues ∧ t.peers = s.peers
       ∧ t.cells = s.cells)
  ∧ (∀ (number : Byte) (rest : List Entry) (s : State), s.openRunning → s.cues.manual = .idle →
       (s.settings.sources[(4 : Fin 5)]).areas ≠ 0 → distinctClaims s → localityHolds s → NumberDrawn s number →
       PlaceMade s rest →
       ∃ t, exec .manualCueStart s = .next t ∧ t.port.output = [0xA0] ∧ LocalClaimMade s 4 number rest t
         ∧ t.cues = { s.cues with manual := .active, manualNumber := some number } ∧ sameGround s t)

/-- A manual cue stop: NOT_ACTIVE in IDLE; in ACTIVE the claim ends with cause RELEASED, a RELEASE with repeat index 0 is queued,
source 4 returns to IDLE and the command is answered ACCEPTED (R79, R14, R22). Either is activity (R77). The RELEASE is stated of an
outgoing queue with a place free. A MANUAL_CUE with another parameter is answered UNKNOWN and is activity, and changes nothing else;
outside RUNNING it is answered REFUSED and changes no state (R79, R172, R189). -/
def Obligations.ManualCueStops : Prop :=
  ((∀ s : State, s.openRunning → s.cues.manual = .idle →
     ∃ t, exec .manualCueStop s = .next t ∧ t.port.output = [0xA2]
       ∧ t.presence = { level := .active, downshiftTimer := 0, presenceTimer := 0, downshiftDue := false }
       ∧ (s.tx.queue.length < 8 → t.port.events = s.port.events) ∧ sameGround s t ∧ t.claims = s.claims
       ∧ t.selector = s.selector ∧ t.cues = s.cues ∧ t.peers = s.peers ∧ t.cells = s.cells)
   ∧ (∀ (s : State) (n : Byte) (e : Entry), s.openRunning → s.cues.manual = .active → s.cues.manualNumber = some n →
     distinctClaims s → s.entry (s.settings.station, n) = some e → e.isLocal = true → e.state ≠ .ending →
     slotFits s (s.settings.station, n) e →
     ∃ t, exec .manualCueStop s = .next t ∧ t.port.output = [0xA0]
       ∧ t.cues = { s.cues with manual := .idle, manualNumber := none }
       ∧ t.entry (s.settings.station, n) = some
           { e with state := .ending, endCause := some .released, endingSince := some s.clock.stationTime, repeatsLeft := some 2 }
       ∧ t.presence = { level := .active, downshiftTimer := 0, presenceTimer := 0, downshiftDue := false }
       ∧ (s.tx.queue.length < 8 → ∃ g ∈ t.tx.queue, g.body = .release n 0 ∧ g.origin = s.settings.station)
       ∧ (∀ k, k ≠ (s.settings.station, n) →
           (∀ x, s.entry k = some x → ∃ y, t.entry k = some y ∧ y.alike x) ∧ (s.entry k = none → t.entry k = none))
       ∧ sameGround s t ∧ t.peers = s.peers))
  ∧ (∀ (p : Byte) (s : State), p ≠ 0x01 → p ≠ 0x02 →
       (s.openRunning → ∃ t, exec (.manualCueUnknown p) s = .next t ∧ t.port.output = [0xA4]
         ∧ t.presence = { level := .active, downshiftTimer := 0, presenceTimer := 0, downshiftDue := false }
         ∧ sameGround s t ∧ t.claims = s.claims ∧ t.selector = s.selector ∧ t.cues = s.cues ∧ t.peers = s.peers
         ∧ t.cells = s.cells)
       ∧ (s.loader.resetHeld = false → s.port.restartDue = false → s.loader.runState ≠ .running →
         exec (.manualCueUnknown p) s = .next (s.setPort { s.port with output := [0xA3] })))

/-! ### Numbers, scores and orderings (R3, R28 to R33, R39, R40, R143) -/

/-- The four relations of the serial comparison by their windows, and each the mirror of the other (R3). The stale test and the
update of the last ended number agree: after a number has been offered to it, that number is stale; and the number held is
replaced just when the offered one is newer than it or not comparable with it, so that a stale number leaves it as it is
(R9, R14, R126). -/
def Obligations.ClaimNumbersCompareSerially : Prop :=
  (∀ a b : Byte,
     let d := (a.toNat + 256 - b.toNat) % 256
     (newerNumber a b = true ↔ 1 ≤ d ∧ d ≤ 127) ∧ (a = b ↔ d = 0) ∧ (olderNumber a b = true ↔ 129 ≤ d ∧ d ≤ 255)
     ∧ (notComparable a b = true ↔ d = 128) ∧ (newerNumber a b = olderNumber b a) ∧ (notComparable a b = notComparable b a))
  ∧ (∀ (held : Option Byte) (n : Byte),
       (nextLastEnded held n = some n ∨ ∃ l, held = some l ∧ nextLastEnded held n = some l ∧ staleNumber n l = true)
       ∧ (∀ l, held = some l → (staleNumber n l = true ↔ ¬ (newerNumber n l = true ∨ notComparable n l = true)))
       ∧ (∀ l, nextLastEnded held n = some l → staleNumber n l = true)
       ∧ (∀ l, held = some l → staleNumber n l = true → nextLastEnded held n = some l)
       ∧ (∀ l, held = some l → staleNumber n l = false → nextLastEnded held n = some n))

/-- The score of the four stages, each held in 0..255 (R30 to R33). -/
def Obligations.ScoreOfTheFourStages : Prop :=
  ∀ (cfg : Settings) (cls : ClaimClass) (m age d : Nat) (isLocal : Bool),
    let base := min (cfg.weight cls + m * cfg.areaStep) 255
    let bonus := min (if cfg.ageShift ≤ 15 then age / 2 ^ cfg.ageShift else 0) cfg.ageCap
    let second := min (base + bonus) 255
    let third := if isLocal then min (second + cfg.localBonus) 255 else second
    cfg.score cls m age isLocal d = third - min (d * cfg.demoteStep) 255 ∧ cfg.score cls m age isLocal d ≤ 255

/-- The best of a non-empty set is one of it; none has a higher score; of the same score, none has a higher class; of the same
score and class, none has a lower origin; and where it is not the lowest number of those left, it is older than each of them.
Where one of those left is older than every other, the best is that one. Of two entries it is the one that precedes the other
(R39, R40). -/
def Obligations.BestOfASet : Prop :=
  (∀ l : List Entry, l ≠ [] → ∃ e ∈ l, best l = some e ∧ ∀ o ∈ l,
    o.score ≤ e.score
    ∧ (o.score = e.score → o.cls.rank ≤ e.cls.rank)
    ∧ (o.score = e.score → o.cls = e.cls → e.origin.toNat ≤ o.origin.toNat)
    ∧ (o.score = e.score → o.cls = e.cls → o.origin = e.origin →
        (∀ p ∈ l, p.score = e.score → p.cls = e.cls → p.origin = e.origin →
          p.number = e.number ∨ olderNumber e.number p.number = true)
        ∨ e.number.toNat ≤ o.number.toNat))
  ∧ (∀ (l : List Entry) (e : Entry), e ∈ l →
      (∀ o ∈ l, o.score ≤ e.score
        ∧ (o.score = e.score → o.cls.rank ≤ e.cls.rank)
        ∧ (o.score = e.score → o.cls = e.cls → e.origin.toNat ≤ o.origin.toNat)
        ∧ (o.score = e.score → o.cls = e.cls → o.origin = e.origin → o ≠ e → olderNumber e.number o.number = true)) →
      best l = some e)
  ∧ (∀ x y : Entry, x.key ≠ y.key → precedes x y = true → best [x, y] = some x ∧ best [y, x] = some x)

/-- The newest known name is the pending name when one is held and the applied name otherwise; a name of origin 1..31 is newer than
it in the three cases of R143 and in no other. -/
def Obligations.WhichNameIsNewer : Prop :=
  (∀ names : NameStore,
    (∀ p, names.pendingName = some p → names.newest = p) ∧ (names.pendingName = none → names.newest = names.applied))
  ∧ (∀ n k : NameRecord, isStation n.origin = true →
      let d := (n.version.toNat + 65536 - k.version.toNat) % 65536
      newerName n k = true ↔
        k.origin = 0 ∨ (1 ≤ d ∧ d ≤ 32767) ∨ (n.version = k.version ∧ n.origin.toNat < k.origin.toNat))

/-! ### The entries on the second count (R13, R15, R21, R22, R35, R89) -/

/-- An age step in which no stage fires increases the age of every live entry that was not made at this increase by 1, saturating
at 65535, and scores it again; every other entry keeps its fields, and only the closing selection may move entries (R35, R36). An
age step in which no stage ends an entry counts the timers: the presence timer goes up by 1, to 60 at most, the downshift timer by
1 up to the level's limit, and the repeat timer, to 30 at most, while the applied name is the station's own (R133, R135, R146).
Where the closing selection makes an on-air change, its activity leaves the level ACTIVE and both timers 0 (R134): that the timers
are counted before it is the model's order, notes/assumptions/7.md. That a second AGE_STEP at the same increase does nothing is
the model's: notes/assumptions/4.md. The second at which an entry was made and the mark of an age step still to be taken are the
model's own fields: notes/assumptions/19.md. -/
def Obligations.AgeStepAgesEntriesAndCountsTimers : Prop :=
  (∀ s : State, s.running = true → s.clock.ageStepDue = true → (∀ e ∈ s.claims.entries, stepped s e → stagesDue s e = []) →
     (distinctClaims s ∨ ∀ i : Fin 4, s.settings.stages[i].hold = 0) →
     ∃ t, exec .ageStep s = .next t
       ∧ t.claims.entries.map (fun e => { e with state := .waiting }) =
         s.claims.entries.map (fun e => { afterAge s e with state := .waiting })
       ∧ t.clock = { s.clock with ageStepDue := false }
       ∧ t.reference = { s.reference with
           backupSeconds := if s.reference.state = .locked then s.reference.backupSeconds
                            else if s.reference.backupSeconds < 65535 then s.reference.backupSeconds + 1 else 65535 }
       ∧ t.pending = s.pending ∧ t.loader = s.loader ∧ t.settings = s.settings ∧ t.cues = s.cues ∧ t.peers = s.peers
       ∧ t.names.applied = s.names.applied ∧ t.names.pendingName = s.names.pendingName)
  ∧ (∀ s : State, s.running = true → s.clock.ageStepDue = true → distinctClaims s →
       (∀ e ∈ s.claims.entries, stepped s e → endingDue s e = none) →
       ∃ t, exec .ageStep s = .next t
         ∧ t.names.repeatTimer = (if s.names.applied.origin = s.settings.station then
             (if s.names.repeatTimer < 30 then s.names.repeatTimer + 1 else 30) else 0)
         ∧ (t.selector = s.selector →
             t.presence.level = s.presence.level
             ∧ t.presence.presenceTimer = (if s.presence.presenceTimer < 60 then s.presence.presenceTimer + 1 else 60)
             ∧ (∀ limit, s.presence.level.downshiftLimit = some limit → s.presence.downshiftTimer ≤ limit →
                 t.presence.downshiftTimer = min (s.presence.downshiftTimer + 1) limit
                 ∧ t.presence.downshiftDue = decide (limit ≤ s.presence.downshiftTimer + 1))
             ∧ (s.presence.level.downshiftLimit = none → t.presence.downshiftTimer = s.presence.downshiftTimer))
         ∧ (t.selector ≠ s.selector →
             t.presence = { level := .active, downshiftTimer := 0, presenceTimer := 0, downshiftDue := false }))
  ∧ (∀ s : State, s.clock.ageStepDue = false → exec .ageStep s = .next s)

/-- The age step at an entry of any table, on whose others no stage fires. The stages that are on, whose number is greater than
the stages fired and whose hold the new age has reached fire one after the other, up to the first that ends the entry; stages
fired becomes the last one's number (R89, R90). NONE posts nothing, the others post OVERRUN; each DEMOTE increases the demotions,
to 3 at most, and the score follows (R91, R92). LOCAL_END and LAPSE end the entry, which keeps the score it had, with what they do
beside it for a remote and for a local entry (R93 to R96, R90). An ON_AIR entry that is ended empties the slot, and the best
WAITING candidate of the aged table takes it in the same change, or none (R51): stated of a guard time above 0, which holds the
closing selection, or of no candidate. One that goes on keeps the slot, unless the best WAITING candidate displaces it at the
closing selection with the guard stopped (R35, R48, R49, R92). On the only entry, a WAITING non-candidate, nothing else changes.
The frames of an ending, and the event queue after it, are stated of an outgoing queue with two places free. That an ending leaves
the presence and downshift timers at 0, since the timers are counted first, and that OVERRUN and LAPSE_SENT stand before
ON_AIR_CHANGED are the model's order: notes/assumptions/7.md. The second at which an entry was made is the model's own field:
notes/assumptions/19.md. -/
def Obligations.AnOverrunStageActs : Prop :=
  (∀ (e : Entry) (s : State), s.running = true → s.clock.ageStepDue = true → s.claims.entries = [e] → s.selector.onAir = none →
     e.state = .waiting → e.candidate = false → e.madeSecond ≠ s.clock.secondCount → e.demotions ≤ 3 →
     ∃ t, exec .ageStep s = .next t ∧ t.selector = s.selector ∧ t.settings = s.settings ∧ t.cells = s.cells ∧
       match endingDue s e with
       | none =>
         t.claims = { s.claims with entries := [supervisedBy s e] } ∧ t.port = stagesPosted s e ∧ t.tx = s.tx ∧ t.cues = s.cues
         ∧ t.peers = s.peers
       | some cause =>
         t.claims = { s.claims with entries := [endedAs cause s.clock.stationTime (supervisedBy s e)] }
         ∧ t.presence = { level := .active, downshiftTimer := 0, presenceTimer := 0, downshiftDue := false }
         ∧ EndedByStage s e cause t ∧ (s.tx.queue.length < 7 → t.port = stagesPosted s e))
  ∧ (∀ (e : Entry) (s : State), s.running = true → s.clock.ageStepDue = true → distinctClaims s → slotAgrees s →
       e ∈ s.claims.entries → stepped s e → e.demotions ≤ 3 →
       (∀ x ∈ s.claims.entries, x ≠ e → stepped s x → stagesDue s x = []) →
       ∃ t, exec .ageStep s = .next t ∧ t.settings = s.settings
         ∧ t.claims.entries.map Entry.key = s.claims.entries.map Entry.key
         ∧ (∀ x ∈ s.claims.entries, x ≠ e → ∃ y, t.entry x.key = some y ∧ y.alike (afterAge s x)) ∧
         match endingDue s e with
         | none =>
           (∃ y, t.entry e.key = some y ∧ y.alike (supervisedBy s e)) ∧ t.cues = s.cues ∧ t.peers = s.peers
           ∧ (∀ x, e.state = .onAir → bestAged s = some x → s.selector.guard = none → displaces s x (supervisedBy s e) →
               t.selector = changedTo (some x) s ∧ t.entry e.key = some { supervisedBy s e with state := .waiting }
               ∧ t.cells = { s.cells with burst := 3 }
               ∧ (s.tx.queue.length < 8 →
                   t.port = portWith (changeEvent s.clock.stationTime e.origin (some x)) (stagesPosted s e)))
           ∧ (e.state = .onAir → (∀ x, bestAged s = some x → s.selector.guard ≠ none ∨ ¬ displaces s x (supervisedBy s e)) →
               t.selector = s.selector ∧ t.entry e.key = some (supervisedBy s e) ∧ t.cells = s.cells ∧ t.tx = s.tx
               ∧ t.port = stagesPosted s e)
         | some cause =>
           t.entry e.key = some (endedAs cause s.clock.stationTime (supervisedBy s e)) ∧ t.selector.onAir ≠ some e.key
           ∧ t.presence = { level := .active, downshiftTimer := 0, presenceTimer := 0, downshiftDue := false }
           ∧ EndedByStage s e cause t
           ∧ (e.state = .onAir → (s.settings.guardTime ≠ 0 ∨ bestAged s = none) →
               t.selector = changedTo (bestAged s) s ∧ t.cells = { s.cells with burst := 3 }
               ∧ (s.tx.queue.length < 7 →
                   t.port = portWith (changeEvent s.clock.stationTime e.origin (bestAged s)) (stagesPosted s e))))

/-- A remote live entry whose lifetime has passed expires: it moves to ENDING with cause EXPIRED, its origin's last ended number
takes its number, and the move is activity; no other entry's fields but its state change (R13, R14). An entry whose tail has
passed leaves the table, and the admission order of the others stands (R15). The increases counted from a moment: one for each
second increase after it, up to now (R13, R15, R22). That the two events change nothing before their time is the model's:
notes/assumptions/4.md. -/
def Obligations.LifetimeAndTailExpire : Prop :=
  (∀ (o n : Byte) (e : Entry) (since : Time) (s : State), s.running = true → distinctClaims s →
     s.entry (o, n) = some e → e.isLocal = false → e.state ≠ .ending → e.lastRefresh = some since → isStation o = true →
     (s.selector.onAir = some (o, n) → e.state = .onAir) →
     (s.settings.lifetime ≤ s.clock.increasesSince since →
       ∃ t, exec (.claimLifetimeExpiry o n) s = .next t
         ∧ t.entry (o, n) = some
             { e with state := .ending, endCause := some .expired, endingSince := some s.clock.stationTime, repeatsLeft := none }
         ∧ (t.peer o).lastEnded = nextLastEnded (s.peer o).lastEnded n
         ∧ (∀ p, p ≠ o → t.peer p = s.peer p) ∧ t.presence.level = .active ∧ t.presence.downshiftTimer = 0
         ∧ t.selector.onAir ≠ some (o, n)
         ∧ (∀ k, k ≠ (o, n) →
             (∀ x, s.entry k = some x → ∃ y, t.entry k = some y ∧ y.alike x) ∧ (s.entry k = none → t.entry k = none))
         ∧ sameGround s t ∧ t.cues = s.cues)
     ∧ (s.clock.increasesSince since < s.settings.lifetime → exec (.claimLifetimeExpiry o n) s = .next s))
  ∧ (∀ (o n : Byte) (e : Entry) (since : Time) (s : State), s.running = true → s.entry (o, n) = some e → e.state = .ending →
       e.endingSince = some since →
       (s.settings.tail ≤ s.clock.increasesSince since →
         ∃ t, exec (.endingTailExpiry o n) s = .next t ∧ t.entry (o, n) = none
           ∧ t.claims.entries.map Entry.key = (s.claims.entries.filter fun x => x.key ≠ (o, n)).map Entry.key
           ∧ sameGround s t ∧ t.cues = s.cues ∧ t.peers = s.peers)
       ∧ (s.clock.increasesSince since < s.settings.tail → exec (.endingTailExpiry o n) s = .next s))
  ∧ (∀ (c : Clock) (k : Nat) (t : Time),
       (k ≤ c.increasesSince t ↔ k = 0 ∨ c.phase + 50 * (k - 1) < (c.stationTime - t).toNat))

/-- A due refresh queues a CLAIM with the present refresh count and then raises the count: a frame for the same number that
waits outside transmission takes the count instead, in its place (R21, R112). A due release
repeat queues a RELEASE whose repeat index is 3 less the repeats left, which then go down by 1 (R22). The second at which a
refresh falls due is the model's own field: notes/assumptions/19.md. That a refresh before it is due, and a repeat when none is
left, change nothing is the model's: notes/assumptions/4.md. -/
def Obligations.RefreshesAndReleaseRepeats : Prop :=
  (∀ (n : Byte) (e : Entry) (s : State), s.running = true → distinctClaims s → s.entry (s.settings.station, n) = some e →
     e.isLocal = true → e.state ≠ .ending → e.number = n →
     let k := (s.settings.station, n)
     let raised := s.claims.entries.map fun x =>
       if x.key = k then { x with refreshCount := if x.refreshCount < 255 then x.refreshCount + 1 else 255,
                                  nextRefresh := x.nextRefresh + 2 } else x
     (e.nextRefresh ≤ s.clock.secondCount → (∃ f ∈ s.tx.queue, f.isWaitingClaim n = true) →
       exec (.localRefresh n) s = .next
         ((s.setTx { s.tx with queue := s.tx.queue.map fun f =>
             if f.isWaitingClaim n then f.withRefreshCount e.refreshCount else f }).setClaims { s.claims with entries := raised }))
     ∧ (e.nextRefresh ≤ s.clock.secondCount → (∀ f ∈ s.tx.queue, f.isWaitingClaim n = false) → s.tx.queue.length < 8 →
       ∃ t, exec (.localRefresh n) s = .next t ∧ t.claims = { s.claims with entries := raised }
         ∧ t.tx.queue = insertFrame ⟨s.settings.station, s.claims.startMark, .claim n e.cls e.areas e.label e.refreshCount, false, 1⟩
             s.tx.queue
         ∧ sameGround s t ∧ t.selector = s.selector ∧ t.cues = s.cues ∧ t.peers = s.peers ∧ t.presence = s.presence
         ∧ t.port = s.port ∧ t.cells = s.cells ∧ t.rx = s.rx)
     ∧ (s.clock.secondCount < e.nextRefresh → exec (.localRefresh n) s = .next s))
  ∧ (∀ (n : Byte) (e : Entry) (left : Nat) (since : Time) (s : State), s.running = true → distinctClaims s →
       s.entry (s.settings.station, n) = some e → e.isLocal = true → e.state = .ending → e.repeatsLeft = some left →
       e.endingSince = some since → left ≤ 2 → s.tx.queue.length < 8 →
       let k := (s.settings.station, n)
       (0 < left → 3 - left ≤ s.clock.increasesSince since →
         ∃ t, exec (.releaseRepeat n) s = .next t
           ∧ t.claims = { s.claims with entries := s.claims.entries.map fun x =>
               if x.key = k then { x with repeatsLeft := some (left - 1) } else x }
           ∧ t.tx.queue = insertFrame ⟨s.settings.station, s.claims.startMark, .release n (3 - left), false, 1⟩ s.tx.queue
           ∧ sameGround s t ∧ t.selector = s.selector ∧ t.cues = s.cues ∧ t.peers = s.peers ∧ t.presence = s.presence
           ∧ t.port = s.port ∧ t.cells = s.cells ∧ t.rx = s.rx)
       ∧ (left = 0 → exec (.releaseRepeat n) s = .next s))

/-! ### The selection (R46 to R54) -/

/-- At the guard's expiry with the slot empty, the best WAITING candidate goes on air: the lines take its origin's feed, the
sequence number goes up by 1, the guard starts anew, a burst of three is requested and ON_AIR_CHANGED is posted (R46, R50, R52 to
R56). At the guard's expiry with Y on air, the best WAITING candidate X displaces Y just when X passes the preemption test: X is
an ALERT and Y is not, or X's score is greater than the smaller of Y's score plus the margin and 255 (R42, R47, R48). A running
guard holds a preemption back: a selection run leaves an occupied slot as it is, whatever waits (R49). That GUARD_TIMER_EXPIRY
changes nothing before its expiry is the model's: notes/assumptions/4.md. -/
def Obligations.GuardExpiryFillsOrPreempts : Prop :=
  (∀ (at' : Nat) (x : Entry) (s : State), s.running = true → s.selector.guard = some at' → at' ≤ s.clock.secondCount →
     s.selector.onAir = none → best (s.claims.entries.filter fun e => e.state == .waiting && e.candidate) = some x →
     s.port.events.length < 15 → s.tx.queue.length < 8 →
     ∃ t, exec .guardTimerExpiry s = .next t
       ∧ t.claims = { s.claims with entries := s.claims.entries.map fun e => if e.key = x.key then { e with state := .onAir } else e }
       ∧ t.selector =
           { onAir := some x.key
             guard := if s.settings.guardTime = 0 then none else some (s.clock.secondCount + s.settings.guardTime)
             sequence := s.selector.sequence + 1, feedSelect := s.settings.feedOf x.origin, feedEnable := true }
       ∧ t.cells = { s.cells with burst := 3 }
       ∧ t.port.events = s.port.events ++ [⟨.onAirChanged, s.clock.stationTime, x.origin, x.number, 0⟩]
       ∧ t.presence = { level := .active, downshiftTimer := 0, presenceTimer := 0, downshiftDue := false }
       ∧ sameGround s t ∧ t.cues = s.cues ∧ t.peers = s.peers)
  ∧ (∀ (at' : Nat) (x y : Entry) (k : Byte × Byte) (s : State), s.running = true → s.selector.guard = some at' →
       at' ≤ s.clock.secondCount → distinctClaims s → s.selector.onAir = some k → s.entry k = some y → y.state = .onAir →
       best (s.claims.entries.filter fun e => e.state == .waiting && e.candidate) = some x →
       let passes : Prop := (x.cls = .alert ∧ y.cls ≠ .alert) ∨ min (y.score + s.settings.margin) 255 < x.score
       (passes →
         ∃ t, exec .guardTimerExpiry s = .next t
           ∧ t.claims = { s.claims with entries := s.claims.entries.map fun e =>
               if e.key = x.key then { e with state := .onAir } else if e.key = k then { e with state := .waiting } else e }
           ∧ t.selector.onAir = some x.key ∧ t.selector.sequence = s.selector.sequence + 1
           ∧ t.selector.feedSelect = s.settings.feedOf x.origin ∧ t.selector.feedEnable = true ∧ t.cells = { s.cells with burst := 3 }
           ∧ sameGround s t ∧ t.cues = s.cues ∧ t.peers = s.peers)
       ∧ (¬ passes → exec .guardTimerExpiry s = .next (s.setSelector { s.selector with guard := none })))
  ∧ (∀ (at' : Nat) (k : Byte × Byte) (s : State), s.selector.guard = some at' → s.selector.onAir = some k →
       select s = s ∧ (s.clock.secondCount < at' → exec .guardTimerExpiry s = .next s))

/-! ### The receiver (R101 to R107) -/

/-- What the part would receive of a frame is the frame: its characters behind the start character pass the checks of R104 at
every other station and give its kind, origin, start mark and payload. Each character goes onto the line as a start bit, its eight
data bits with the least significant first, and a stop bit, with the line at rest while no attempt is under way; from these levels
the receiver takes the character, with a framing error where the stop bit stands away from rest (R100, R188). That a data bit 1
stands at the rest level is the model's: notes/assumptions/22.md. -/
def Obligations.FramesPassTheChecksUnchanged : Prop :=
  (∀ (f : Frame) (own : Byte), isStation f.origin = true → f.origin ≠ own →
    ∃ l rest, f.characters = 0xC3 :: l :: rest ∧ rest.length = l.toNat + 2
      ∧ judgeAssembly own l rest false = .accepted f.body.kindCode f.origin f.mark f.body.payload)
  ∧ (∀ s : State,
       (s.tx.sending = none → ∀ i, s.linkTransmit i = true)
       ∧ (∀ a : Attempt, s.tx.sending = some a →
           (List.range 10).map s.linkTransmit = false :: (List.range 8).map (byteAt a.chars a.index).getLsbD ++ [true]))
  ∧ (∀ (c : Byte) (stop : Bool) (s : State), s.running = true →
       characterOf (false :: (List.range 8).map c.getLsbD ++ [stop]) = (c, !stop)
       ∧ exec (.assemblyCharacter c (!stop)) s = .next (receiveLevels (false :: (List.range 8).map c.getLsbD ++ [stop]) s))

/-- A frame of another station received whole on a line that was idle, character by character from READY, is dispatched just once,
with its kind, origin, mark and payload, from a receiver that is back in WAIT_IDLE (R102 to R105, R108). That ASSEMBLY_CHARACTER
hands its character to the one receiver, which completes the frame with the last of them, is the model's:
notes/assumptions/5.md. -/
def Obligations.AWholeFrameIsDispatched : Prop :=
  ∀ (f : Frame) (s : State), s.running = true → s.rx.state = .ready → isStation f.origin = true →
    f.origin ≠ s.settings.station →
    ∃ t, exec .startCharacter s = .next t ∧ t.rx.state = .assembling
      ∧ receiveAll (f.characters.drop 1) t = .next
          (dispatchFrame f.body.kindCode f.origin f.mark f.body.payload (s.setRx (emptiedReceiver s s.rx.counters)))

/-- Any start bit makes the line busy; a rest of 4 character times makes it idle and takes the receiver from WAIT_IDLE to READY
(R101, R102). In READY a clean 0xC3 begins an assembly with an empty buffer, and any other character or a framing error is a
stray: counted, and WAIT_IDLE (R102). In WAIT_IDLE a character is ignored and not counted. Inside an assembly: a length character
outside 3..20 discards it as malformed; another is taken; further characters are stored with their framing error marked, until the
expected count is reached; a rest of 2 character times abandons it as truncated (R103), each counted where the assembly is not own
(R106). -/
def Obligations.CharactersMoveTheReceiver : Prop :=
  (∀ s : State, s.running = true →
     exec .lineBusy s = .next (s.setRx { s.rx with line := .busy })
     ∧ exec .lineIdle s = .next
         (s.setRx { s.rx with line := .idle, state := if s.rx.state = .waitIdle then .ready else s.rx.state }))
  ∧ (∀ s : State, s.running = true →
       (s.rx.state = .ready →
         exec .startCharacter s = .next (s.setRx
           { s.rx with line := .busy, state := .assembling, length := none, buffer := [], framing := false, own := false }))
       ∧ (s.rx.state = .ready → ∀ (c : Byte) (e : Bool), c ≠ 0xC3 ∨ e = true →
         exec (.strayCharacter c e) s = .next
           (s.setRx (emptiedReceiver s { s.rx.counters with stray := plusOne s.rx.counters.stray })))
       ∧ (s.rx.state = .waitIdle → ∀ (c : Byte) (e : Bool),
         exec (.strayCharacter c e) s = .next (s.setRx { s.rx with line := .busy })))
  ∧ (∀ (c : Byte) (e : Bool) (s : State), s.running = true → s.rx.state = .assembling →
       (s.rx.length = none → (c.toNat < 3 ∨ 20 < c.toNat) →
         exec (.badLengthCharacter c e) s = .next
           (s.setRx (emptiedReceiver s { s.rx.counters with malformed := plusOne s.rx.counters.malformed })))
       ∧ (s.rx.length = none → 3 ≤ c.toNat → c.toNat ≤ 20 →
         exec (.assemblyCharacter c e) s = .next
           (s.setRx { s.rx with line := .busy, length := some c, framing := s.rx.framing || e, own := false }))
       ∧ (∀ l : Byte, s.rx.length = some l → s.rx.buffer.length + 1 < l.toNat + 2 →
         exec (.assemblyCharacter c e) s = .next
           (s.setRx { s.rx with line := .busy, buffer := s.rx.buffer ++ [c], framing := s.rx.framing || e, own := false }))
       ∧ exec .assemblyAbandoned s = .next
           (s.setRx { s.rx with
             state := .waitIdle, length := none, buffer := [], framing := false, own := false,
             counters := if s.rx.own then s.rx.counters
                         else { s.rx.counters with truncated := plusOne s.rx.counters.truncated } }))

/-- A complete assembly that is not own is discarded at the first check it fails, with that check's counter and no other effect: a
framing mark, a CRC that differs, an unknown kind, a length that is not the kind's, an origin outside 1..31 (R104). A frame that
carries the own station number is discarded and counted; DUPLICATE_STATION is posted when none was posted in this start or at
least 60 increases have passed since the last, and not otherwise (R107). -/
def Obligations.DiscardedAssembliesAreCounted : Prop :=
  (∀ (c l : Byte) (e : Bool) (s : State), s.running = true → s.rx.state = .assembling → s.rx.length = some l →
     s.rx.buffer.length + 1 = l.toNat + 2 → 3 ≤ l.toNat →
     let b := s.rx.buffer ++ [c]
     let k := s.rx.counters
     let crcGood : Prop := crc16 (l :: b.take l.toNat) = halfOf (byteAt b l.toNat) (byteAt b (l.toNat + 1))
     let kind := byteAt b 0
     let origin := byteAt b 1
     let discarded := fun counters => exec (.discardedAssembly c e) s = .next (s.setRx (emptiedReceiver s counters))
     ((s.rx.framing || e) = true → discarded { k with framing := plusOne k.framing })
     ∧ ((s.rx.framing || e) = false → ¬ crcGood → discarded { k with badCrc := plusOne k.badCrc })
     ∧ ((s.rx.framing || e) = false → crcGood → (kind.toNat = 0 ∨ 5 < kind.toNat) →
         discarded { k with unknownKind := plusOne k.unknownKind })
     ∧ ((s.rx.framing || e) = false → crcGood → (∃ n, lengthOfKind kind = some n ∧ l.toNat ≠ n) →
         discarded { k with malformed := plusOne k.malformed })
     ∧ ((s.rx.framing || e) = false → crcGood → (∃ n, lengthOfKind kind = some n ∧ l.toNat = n) →
         (origin.toNat = 0 ∨ 31 < origin.toNat) → discarded { k with malformed := plusOne k.malformed }))
  ∧ (∀ (f : Frame) (last : Byte) (s : State), s.running = true → s.rx.state = .assembling → s.rx.length = some f.lengthByte →
       s.rx.buffer ++ [last] = f.characters.drop 2 → s.rx.framing = false → s.rx.own = false →
       f.origin = s.settings.station → isStation f.origin = true → s.port.events.length < 16 →
       let k := s.rx.counters
       let rx := emptiedReceiver s { k with duplicateStation := plusOne k.duplicateStation }
       let due : Prop := s.rx.lastDuplicate = none ∨ ∃ m, s.rx.lastDuplicate = some m ∧ 60 ≤ s.clock.secondCount - m
       (¬ due → exec (.discardedAssembly last false) s = .next (s.setRx rx))
       ∧ (due → exec (.discardedAssembly last false) s = .next
           ((s.setRx { rx with lastDuplicate := some s.clock.secondCount }).setPort { s.port with events := s.port.events ++
               [⟨.duplicateStation, s.clock.stationTime, f.body.kindCode, f.mark, 0⟩] })))

/-! ### What the frames do (R6 to R12, R124 to R128, R144) -/

/-- A CLAIM frame for a live entry is a refresh: last refresh becomes now and the refresh count becomes k, its other fields stand,
and a first mismatch posts CLAIM_MISMATCH with the mask of the differing fields (R8). A CLAIM frame for an entry in ENDING with
another cause than RESTARTED, or for no entry and covered by the origin's last ended number, is stale; one for no entry whose
areas miss the served areas is outside: each is counted and leaves the table as it is; an entry in ENDING with cause RESTARTED
counts as none (R9, R10, R7). A class above 3 or a label above 7 is malformed: the frame is counted as accepted and as malformed,
its sender is heard, and nothing else changes (R6, R108). -/
def Obligations.ClaimFrameOfAKnownClaim : Prop :=
  (∀ (f : Frame) (last n : Byte) (cls : ClaimClass) (areas label : Byte) (k : Nat) (e : Entry) (s : State),
     Completes s f last → knownSender s f → f.body = .claim n cls areas label k → k ≤ 255 → label.toNat ≤ 7 →
     s.entry (f.origin, n) = some e → e.state ≠ .ending → s.port.events.length < 16 →
     let mask : Byte := (if e.cls = cls then 0 else 1) + (if e.areas = areas then 0 else 2) + (if e.label = label then 0 else 4)
     ∃ t, exec (.claimFrame last) s = .next t
       ∧ t.claims = { s.claims with entries := s.claims.entries.map fun x =>
           if x.key = (f.origin, n) then
             { x with lastRefresh := some s.clock.stationTime, refreshCount := k,
                      mismatchReported := x.mismatchReported || mask != 0 }
           else x }
       ∧ t.port = { s.port with events := s.port.events ++
           if mask ≠ 0 ∧ e.mismatchReported = false then [⟨.claimMismatch, s.clock.stationTime, f.origin, n, mask⟩] else [] }
       ∧ t.peer f.origin = heardPeer s f.origin ∧ (∀ p, p ≠ f.origin → t.peer p = s.peer p)
       ∧ t.rx = heardReceiver s ∧ sameGround s t ∧ t.selector = s.selector ∧ t.cues = s.cues ∧ t.tx = s.tx
       ∧ t.presence = s.presence ∧ t.cells = s.cells)
  ∧ (∀ (f : Frame) (last n : Byte) (cls : ClaimClass) (areas label : Byte) (k : Nat) (s : State),
       Completes s f last → knownSender s f → f.body = .claim n cls areas label k → k ≤ 255 → label.toNat ≤ 7 →
       let covered : Prop := ∃ l, (s.peer f.origin).lastEnded = some l ∧ (n = l ∨ olderNumber n l = true)
       let keeps := fun (claims : ClaimTable) => ∃ t, exec (.claimFrame last) s = .next t ∧ t.claims = claims
         ∧ t.peer f.origin = heardPeer s f.origin ∧ t.rx = heardReceiver s ∧ sameGround s t ∧ t.selector = s.selector
         ∧ t.cues = s.cues ∧ t.tx = s.tx ∧ t.presence = s.presence ∧ t.cells = s.cells ∧ t.port = s.port
       ((∃ e, s.entry (f.origin, n) = some e ∧ e.state = .ending ∧ e.endCause ≠ some .restarted) →
         keeps { s.claims with stale := plusOne s.claims.stale })
       ∧ (countsAsNone s (f.origin, n) → covered → keeps { s.claims with stale := plusOne s.claims.stale })
       ∧ (countsAsNone s (f.origin, n) → ¬ covered → areas &&& s.settings.served = 0 →
           keeps { s.claims with outside := plusOne s.claims.outside }))
  ∧ (∀ (origin mark n cls areas label k last : Byte) (s : State),
       CompletesRaw s 2 origin mark [n, cls, areas, label, k] last → (3 < cls.toNat ∨ 7 < label.toNat) →
       exec (.claimFrame last) s = .next (rejectedPayload s origin))

/-- A CLAIM frame that matches no entry, is not stale and covers a served area makes a new entry while the table has room, with
the fields of R10, last in the admission order; the making is activity and the selection may move entries (R10, R4, R34). An entry
in ENDING with cause RESTARTED that has the frame's origin and number matches none: it is freed first, and its place serves the
new entry, also in a full table (R7, R1). That it is freed before the place is sought, and that no selection run follows the
freeing itself, is deduced: notes/assumptions/10.md and 11.md. The last two fields of the entry are the model's own:
notes/assumptions/19.md. -/
def Obligations.ClaimFrameMakesAnEntry : Prop :=
  ∀ (f : Frame) (last n : Byte) (cls : ClaimClass) (areas label : Byte) (k : Nat) (s : State),
    Completes s f last → knownSender s f → f.body = .claim n cls areas label k → k ≤ 255 → label.toNat ≤ 7 →
    countsAsNone s (f.origin, n) →
    (∀ l, (s.peer f.origin).lastEnded = some l → n ≠ l ∧ olderNumber n l = false) →
    let rest := s.claims.entries.filter fun e => e.key ≠ (f.origin, n)
    areas &&& s.settings.served ≠ 0 → rest.length < 16 → distinctClaims s →
    ∃ t e, exec (.claimFrame last) s = .next t
      ∧ t.claims.entries.map Entry.key = rest.map Entry.key ++ [(f.origin, n)]
      ∧ t.entry (f.origin, n) = some e
      ∧ e.alike
          { origin := f.origin, number := n, isLocal := false, source := none, cls := cls, areas := areas, label := label,
            candidate := s.settings.feedOf f.origin != 0, state := .waiting, age := 2 * k,
            lastRefresh := some s.clock.stationTime, demotions := 0, stagesFired := 0,
            score := s.settings.score cls (sharedAreas areas s.settings.served) (2 * k) false 0, endCause := none,
            endingSince := none, repeatsLeft := none, refreshCount := k, mismatchReported := false,
            madeSecond := s.clock.secondCount, nextRefresh := 0 }
      ∧ (s.selector.onAir = none → e.candidate = true → (∀ x ∈ rest, x.candidate = false) →
          e.state = .onAir ∧ t.selector.onAir = some (f.origin, n))
      ∧ (e.candidate = false → e.state = .waiting)
      ∧ (∀ x ∈ rest, ∃ y, t.entry x.key = some y ∧ y.alike x)
      ∧ t.presence = { level := .active, downshiftTimer := 0, presenceTimer := 0, downshiftDue := false }
      ∧ t.peer f.origin = heardPeer s f.origin ∧ sameGround s t ∧ t.cues = s.cues
      ∧ t.claims.stale = s.claims.stale ∧ t.claims.outside = s.claims.outside ∧ t.claims.nextNumber = s.claims.nextNumber

/-- In a full table a newcomer takes the place of the remote entry in ENDING with the earliest ending since, whatever the scores;
with no entry in ENDING, of the remote WAITING entry of lowest score when its own score is greater; ties by admission order.
Otherwise, and where no entry may be taken, TABLE_FULL is posted. The evicted entry leaves no trace: its origin's last ended
number stands, also where the origin is the sender (R16, R18, R41). -/
def Obligations.FullTableWeighsTheNewcomer : Prop :=
  ∀ (f : Frame) (last n : Byte) (cls : ClaimClass) (areas label : Byte) (k : Nat) (v : Entry) (s : State),
    Completes s f last → knownSender s f → f.body = .claim n cls areas label k → k ≤ 255 → label.toNat ≤ 7 →
    s.entry (f.origin, n) = none → (∀ l, (s.peer f.origin).lastEnded = some l → n ≠ l ∧ olderNumber n l = false) →
    areas &&& s.settings.served ≠ 0 → s.claims.entries.length = 16 → distinctClaims s →
    let score := s.settings.score cls (sharedAreas areas s.settings.served) (2 * k) false 0
    let evicted := ∃ t, exec (.claimFrame last) s = .next t ∧ t.entry v.key = none
      ∧ t.claims.entries.map Entry.key = (s.claims.entries.filter fun e => e.key ≠ v.key).map Entry.key ++ [(f.origin, n)]
      ∧ t.peer f.origin = heardPeer s f.origin ∧ (∀ p, p ≠ f.origin → t.peer p = s.peer p) ∧ sameGround s t ∧ t.cues = s.cues
    let refused := ∃ t, exec (.claimFrame last) s = .next t ∧ t.claims = s.claims ∧ t.selector = s.selector
      ∧ t.port = portWith ⟨.tableFull, s.clock.stationTime, f.origin, n, cls.code⟩ s.port
      ∧ t.peer f.origin = heardPeer s f.origin ∧ (∀ p, p ≠ f.origin → t.peer p = s.peer p)
      ∧ sameGround s t ∧ t.tx = s.tx ∧ t.presence = s.presence ∧ t.cues = s.cues
    (EndingVictim s v → evicted)
    ∧ (WaitingVictim s v → v.score < score → evicted)
    ∧ (WaitingVictim s v → score ≤ v.score → refused)
    ∧ ((∀ e ∈ s.claims.entries, e.isLocal = true ∨ e.state = .onAir) → refused)

/-- A RELEASE frame ends a live entry with cause RELEASED; for an entry in ENDING it changes nothing but that its sender was
heard; for no entry, or one in ENDING with cause RESTARTED, which counts as none, its number is offered to the origin's last ended
number (R11, R14, R7). A repeat index above 2 is malformed: the frame is counted as accepted and as malformed, its sender is
heard, and nothing else changes (R6, R108). -/
def Obligations.ReleaseFrameEndsTheEntry : Prop :=
  (∀ (f : Frame) (last n : Byte) (i : Nat) (s : State),
    Completes s f last → knownSender s f → f.body = .release n i → i ≤ 2 → distinctClaims s →
    (∀ e, s.entry (f.origin, n) = some e → e.isLocal = false → e.state ≠ .ending → slotFits s (f.origin, n) e →
      ∃ t, exec (.releaseFrame last) s = .next t
        ∧ t.entry (f.origin, n) = some
            { e with state := .ending, endCause := some .released, endingSince := some s.clock.stationTime, repeatsLeft := none }
        ∧ t.peer f.origin = { heardPeer s f.origin with lastEnded := nextLastEnded (s.peer f.origin).lastEnded n }
        ∧ t.presence.level = .active ∧ t.presence.downshiftTimer = 0 ∧ sameGround s t ∧ t.cues = s.cues)
    ∧ (∀ e, s.entry (f.origin, n) = some e → e.state = .ending → e.endCause ≠ some .restarted →
      ∃ t, exec (.releaseFrame last) s = .next t ∧ t.claims = s.claims ∧ t.peer f.origin = heardPeer s f.origin
        ∧ t.rx = heardReceiver s ∧ sameGround s t ∧ t.selector = s.selector ∧ t.cues = s.cues ∧ t.tx = s.tx
        ∧ t.presence = s.presence ∧ t.port = s.port)
    ∧ (countsAsNone s (f.origin, n) →
      ∃ t, exec (.releaseFrame last) s = .next t ∧ t.claims = s.claims
        ∧ t.peer f.origin = { heardPeer s f.origin with lastEnded := nextLastEnded (s.peer f.origin).lastEnded n }
        ∧ t.rx = heardReceiver s ∧ sameGround s t ∧ t.selector = s.selector ∧ t.cues = s.cues ∧ t.tx = s.tx
        ∧ t.presence = s.presence ∧ t.port = s.port))
  ∧ (∀ (origin mark n index last : Byte) (s : State),
       CompletesRaw s 3 origin mark [n, index] last → 2 < index.toNat →
       exec (.releaseFrame last) s = .next (rejectedPayload s origin))

/-- A LAPSE frame ends the live entry it names with cause LAPSED, on air or waiting, and the LAPSE_HEARD event is posted with its
sender; for no entry of a peer, or one in ENDING with cause RESTARTED, which counts as none (R7), it offers the number to that
peer's last ended number, and for no entry of the own station or another one in ENDING it is discarded. A live entry of the own
station queues its RELEASE, and its cue source is told: an ACTIVE channel is BLOCKED with its open record closed as LAPSED, and
the manual cue is IDLE (R12, R14, R22, R74, R80). A claim origin outside 1..31 is malformed: the frame is counted as accepted and
as malformed, its sender is heard, and nothing else changes (R6, R108). That LAPSE_HEARD follows the events of the ending is the
model's order: notes/assumptions/7.md. -/
def Obligations.LapseFrameEndsTheEntry : Prop :=
  (∀ (f : Frame) (last o n : Byte) (s : State),
    Completes s f last → knownSender s f → f.body = .lapse o n → isStation o = true → distinctClaims s →
    (∀ e, s.entry (o, n) = some e → e.isLocal = false → e.state = .waiting → e.candidate = false → s.selector.onAir = none →
      (∀ x ∈ s.claims.entries, x.candidate = false) → s.port.events.length < 15 → s.tx.queue.length < 8 →
      ∃ t, exec (.lapseFrame last) s = .next t
        ∧ t.entry (o, n) = some
            { e with state := .ending, endCause := some .lapsed, endingSince := some s.clock.stationTime, repeatsLeft := none }
        ∧ (t.peer o).lastEnded = nextLastEnded (s.peer o).lastEnded n ∧ t.presence.level = .active
        ∧ t.port.events = s.port.events ++ [⟨.lapseHeard, s.clock.stationTime, f.origin, o, n⟩]
        ∧ sameGround s t ∧ t.cues = s.cues)
    ∧ (countsAsNone s (o, n) → o ≠ s.settings.station →
      ∃ t, exec (.lapseFrame last) s = .next t ∧ t.claims = s.claims
        ∧ (t.peer o).lastEnded = nextLastEnded (s.peer o).lastEnded n
        ∧ sameGround s t ∧ t.selector = s.selector ∧ t.cues = s.cues ∧ t.tx = s.tx ∧ t.presence = s.presence ∧ t.port = s.port)
    ∧ (countsAsNone s (o, n) → o = s.settings.station →
      ∃ t, exec (.lapseFrame last) s = .next t ∧ t.claims = s.claims ∧ t.peer f.origin = heardPeer s f.origin
        ∧ (∀ p, p ≠ f.origin → t.peer p = s.peer p)
        ∧ sameGround s t ∧ t.selector = s.selector ∧ t.cues = s.cues ∧ t.tx = s.tx ∧ t.presence = s.presence ∧ t.port = s.port))
  ∧ (∀ (f : Frame) (last o n : Byte) (e : Entry) (s : State),
       Completes s f last → knownSender s f → f.body = .lapse o n → isStation o = true → distinctClaims s →
       s.entry (o, n) = some e →
       let lapsed := endedAs .lapsed s.clock.stationTime e
       let heard : EventRecord := ⟨.lapseHeard, s.clock.stationTime, f.origin, o, n⟩
       let ends := fun (t : State) => exec (.lapseFrame last) s = .next t ∧ t.entry (o, n) = some lapsed
         ∧ t.selector.onAir ≠ some (o, n) ∧ t.presence.level = .active
         ∧ (s.port.events.length < 15 → s.tx.queue.length < 7 → postedLast s.port.events heard t.port.events)
         ∧ sameGround s t
       (e.isLocal = false → e.state ≠ .ending → slotFits s (o, n) e →
         ∃ t, ends t ∧ (t.peer o).lastEnded = nextLastEnded (s.peer o).lastEnded n ∧ t.cues = s.cues)
       ∧ (e.isLocal = true → o = s.settings.station → e.state ≠ .ending → slotFits s (o, n) e →
           let told := fun (t : State) => ends t ∧ (∀ p, p ≠ f.origin → t.peer p = s.peer p)
             ∧ (s.tx.queue.length < 8 → ∃ g ∈ t.tx.queue, g.body = .release n 0 ∧ g.origin = s.settings.station)
           (∀ c : Fin 4, e.source = some c.castSucc → s.cues.channels[c].state = .active →
             ∃ t, told t ∧ t.cues = (withChannel c
               { recordClosed s.clock.stationTime .lapsed s.cues.channels[c] with state := .blocked, number := none, offCount := 0 }
               s).cues)
           ∧ (e.source = some 4 → ∃ t, told t ∧ t.cues = { s.cues with manual := .idle, manualNumber := none }))
       ∧ (e.state = .ending → e.endCause ≠ some .restarted →
           ∃ t, exec (.lapseFrame last) s = .next t ∧ t.claims = s.claims ∧ t.peer f.origin = heardPeer s f.origin
             ∧ (∀ p, p ≠ f.origin → t.peer p = s.peer p) ∧ t.rx = heardReceiver s ∧ sameGround s t ∧ t.selector = s.selector
             ∧ t.cues = s.cues ∧ t.tx = s.tx ∧ t.presence = s.presence ∧ t.cells = s.cells ∧ t.port = s.port))
  ∧ (∀ (origin mark o n last : Byte) (s : State),
       CompletesRaw s 4 origin mark [o, n] last → isStation o = false →
       exec (.lapseFrame last) s = .next (rejectedPayload s origin))

/-- A PRESENCE frame sets its sender's level and its deadline to three periods of that level from now, and stores and compares its
fingerprint; CONFIG_MISMATCH is posted when the match becomes no, and not while it stays no (R127, R128). A level code above 3 is
malformed: the frame is counted as accepted and as malformed, its sender is heard, and its level, fingerprint and match stand
(R127, R108). -/
def Obligations.PresenceFrameSetsThePeer : Prop :=
  (∀ (f : Frame) (last : Byte) (level : QuietLevel) (fp : Half) (s : State),
    Completes s f last → knownSender s f → f.body = .presence level fp → s.port.events.length < 16 →
    let news : Prop := fp ≠ s.settings.fingerprint ∧ (s.peer f.origin).fingerprintMatch ≠ some false
    ∃ t, exec (.presenceFrame last) s = .next t
      ∧ t.peer f.origin =
          { heardPeer s f.origin with
            level := level, deadline := some (s.clock.stationTime + BitVec.ofNat 32 (150 * level.period)),
            fingerprint := some fp, fingerprintMatch := some (decide (fp = s.settings.fingerprint)) }
      ∧ (news → t.port.events = s.port.events ++ [⟨.configMismatch, s.clock.stationTime, f.origin, hiByte fp, loByte fp⟩])
      ∧ (¬ news → t.port = s.port) ∧ (∀ p, p ≠ f.origin → t.peer p = s.peer p)
      ∧ t.rx = heardReceiver s ∧ sameGround s t ∧ t.claims = s.claims ∧ t.selector = s.selector ∧ t.cues = s.cues ∧ t.tx = s.tx
      ∧ t.presence = s.presence ∧ t.cells = s.cells)
  ∧ (∀ (origin mark level hi lo last : Byte) (s : State),
       CompletesRaw s 1 origin mark [level, hi, lo] last → 3 < level.toNat →
       exec (.presenceFrame last) s = .next (rejectedPayload s origin))

/-- A NAME frame whose name is newer than the newest known name becomes the pending name, its characters made printable; another
is discarded; neither is activity (R144). -/
def Obligations.NameFrameBecomesPending : Prop :=
  ∀ (f : Frame) (last : Byte) (version : Half) (text : Text) (s : State),
    Completes s f last → knownSender s f → f.body = .name version text →
    let n : NameRecord := { text := printableText text, version := version, origin := f.origin }
    let k := match s.names.pendingName with
      | some p => p
      | none => s.names.applied
    ∃ t, exec (.nameFrame last) s = .next t
      ∧ t.names = { s.names with pendingName := if newerName n k = true then some n else s.names.pendingName }
      ∧ t.peer f.origin = heardPeer s f.origin ∧ t.rx = heardReceiver s ∧ t.pending = s.pending ∧ t.loader = s.loader
      ∧ t.clock = s.clock ∧ t.settings = s.settings ∧ t.reference = s.reference ∧ t.claims = s.claims
      ∧ t.selector = s.selector ∧ t.cues = s.cues ∧ t.tx = s.tx ∧ t.presence = s.presence ∧ t.cells = s.cells ∧ t.port = s.port

/-- A frame of a peer that is not PRESENT makes it PRESENT with one PEER_PRESENT event; a first mark is stored without a restart
(R124, R125). Stated of a NAME frame that is not newer, which does nothing else. A changed start mark is a restart of the sender:
none of its entries stays live, its earlier ENDING entries are freed, the new mark is stored and the last ended number is absent,
and no entry of another origin leaves the table (R7, R125). -/
def Obligations.PeersAreHeardAndRestart : Prop :=
  (∀ (f : Frame) (last : Byte) (version : Half) (text : Text) (s : State),
     Completes s f last → (s.peer f.origin).state ≠ .present → (s.peer f.origin).mark = none → f.body = .name version text →
     newerName { text := printableText text, version := version, origin := f.origin } s.names.newest = false →
     s.port.events.length < 16 →
     exec (.nameFrame last) s = .next
       (((s.setPeers (s.peers.setIfInBounds (f.origin.toNat - 1) { heardPeer s f.origin with mark := some f.mark })).setRx
           (heardReceiver s)).setPort
         { s.port with events := s.port.events ++ [⟨.peerPresent, s.clock.stationTime, f.origin, f.mark, 5⟩] }))
  ∧ (∀ (f : Frame) (last old : Byte) (version : Half) (text : Text) (s : State),
       Completes s f last → (s.peer f.origin).state = .present → (s.peer f.origin).mark = some old → old ≠ f.mark →
       f.body = .name version text → distinctClaims s → localityHolds s → slotAgrees s →
       ∃ t, exec (.nameFrame last) s = .next t
         ∧ (t.peer f.origin).mark = some f.mark ∧ (t.peer f.origin).lastEnded = none ∧ (t.peer f.origin).state = .present
         ∧ t.claims.entries.map Entry.key =
             (s.claims.entries.filter fun e => e.origin ≠ f.origin ∨ e.state ≠ .ending).map Entry.key
         ∧ (∀ e ∈ t.claims.entries, e.origin = f.origin →
             e.state = .ending ∧ e.endCause = some .restarted ∧ e.endingSince = some s.clock.stationTime)
         ∧ (∀ e ∈ s.claims.entries, e.origin ≠ f.origin → ∃ y, t.entry e.key = some y ∧ y.alike e)
         ∧ t.settings = s.settings ∧ t.clock = s.clock ∧ t.cues = s.cues)

/-! ### The transmitter (R111 to R119) -/

/-- A frame is placed behind the frame in transmission and the frames of its rank and above, ahead of the rest, which keep their
order (R111). A frame offered to a queue of 8 that does not coalesce sheds by rank: the last frame of the lowest rank among those
not in transmission, when that rank is lower than the offered frame's, else the offered frame itself; FRAME_DROPPED is posted for
the one discarded (R114). -/
def Obligations.QueueIsOrderedAndShedsByRank : Prop :=
  (∀ (f : Frame) (q : List Frame), queueOrdered q → f.inTransmission = false →
     ∃ before after, q = before ++ after ∧ insertFrame f q = before ++ f :: after ∧ queueOrdered (insertFrame f q)
       ∧ (∀ g ∈ before, g.inTransmission = true ∨ g.body.rank ≤ f.body.rank)
       ∧ (∀ g ∈ after, g.inTransmission = false ∧ f.body.rank < g.body.rank))
  ∧ (∀ (f : Frame) (s : State), s.tx.queue.length = 8 → s.port.events.length < 16 →
       let offered := fun (g : Frame) =>
         (offerFrame f s).port.events =
             s.port.events ++ [⟨.frameDropped, s.clock.stationTime, g.body.kindCode, 0, 0⟩]
         ∧ (offerFrame f s).rx.counters.framesDropped = plusOne s.rx.counters.framesDropped
       ((∀ g ∈ s.tx.queue, g.inTransmission = false → g.body.rank ≤ f.body.rank) →
         (offerFrame f s).tx = s.tx ∧ offered f)
       ∧ (∀ (before after : List Frame) (g : Frame), s.tx.queue = before ++ g :: after → g.inTransmission = false →
         f.body.rank < g.body.rank → (∀ h ∈ before, h.inTransmission = false → h.body.rank ≤ g.body.rank) →
         (∀ h ∈ after, h.inTransmission = false → h.body.rank < g.body.rank) →
         (offerFrame f s).tx.queue = insertFrame f (before ++ after) ∧ offered g))

/-- The slot counts down on an idle line with no attempt under way, and at 0 the head's first character is sent: its mark is
set, driver enable is asserted and the line is busy (R115, R117). That an expiry or a slot whose condition does not hold changes
nothing is the model's: notes/assumptions/4.md. -/
def Obligations.BackoffCountsAndTheHeadIsSent : Prop :=
  ∀ (f : Frame) (q : List Frame) (n : Nat) (s : State), s.running = true → s.tx.queue = f :: q → s.tx.backoff = some n →
    s.tx.sending = none →
    (s.rx.line = .idle → exec .backoffSlot s = .next (s.setTx { s.tx with backoff := some (n - 1) }))
    ∧ (s.rx.line = .busy → exec .backoffSlot s = .next s ∧ exec .backoffExpiry s = .next s)
    ∧ (s.rx.line = .idle → 0 < n → exec .backoffExpiry s = .next s)
    ∧ (s.rx.line = .idle → n = 0 → exec .backoffExpiry s = .next
        ((s.setTx { s.tx with queue := { f with inTransmission := true } :: q, driverEnable := true,
                              sending := some ⟨f.characters, 0, false⟩ }).setRx { s.rx with line := .busy }))

/-- An own character read back equal is followed by the next one of the attempt, with nothing counted; a stopped attempt ends with
it (R117, R121). The receiver takes the character like any other: in WAIT_IDLE it is ignored; the own start character in READY
begins an assembly that is own; in an assembly, own or not, the length character and those behind it are stored, and the assembly
stays own if it was (R102, R103, R106). The last character of the head read back equal: the own assembly is not checked, counted
or delivered; the frame leaves the queue, frames sent is counted, driver enable is deasserted and the next frame, if there is one,
becomes head and draws its backoff; a queue left empty has no backoff count (R106, R115, R117). When the frame is a PRESENCE and
the renewal mark is set, the mark is cleared and a PRESENCE with the level held now is placed at once, stated of a queue that
holds no other PRESENCE (R113). That a stopped attempt's last character is read back and not counted is the model's:
notes/assumptions/14.md; the draw: 1.md. -/
def Obligations.OwnCharactersAreReadBack : Prop :=
  (∀ (a : Attempt) (s : State), s.running = true → s.rx.state = .waitIdle → s.tx.sending = some a →
     (a.stopping = false → a.index + 1 < a.chars.length →
       exec .characterReadBack s = .next
         ((s.setRx { s.rx with line := .busy }).setTx { s.tx with sending := some { a with index := a.index + 1 } }))
     ∧ (a.stopping = true →
       exec .characterReadBack s = .next
         ((s.setRx { s.rx with line := .busy }).setTx { s.tx with sending := none, driverEnable := false })))
  ∧ (∀ (f : Frame) (q : List Frame) (a : Attempt) (l : Byte) (s : State), s.running = true → s.tx.queue = f :: q →
       s.tx.sending = some a → a.stopping = false → a.index + 1 = a.chars.length → presenceAlone f q →
       s.rx.state = .assembling → s.rx.own = true → s.rx.length = some l → s.rx.buffer.length + 1 = l.toNat + 2 →
       ∃ t, exec .frameSent s = .next t ∧ headLeft f q s t.tx
         ∧ t.rx = emptiedReceiver s { s.rx.counters with framesSent := plusOne s.rx.counters.framesSent }
         ∧ sameGround s t ∧ t.claims = s.claims ∧ t.selector = s.selector ∧ t.cues = s.cues ∧ t.peers = s.peers
         ∧ t.presence = s.presence ∧ t.port = s.port ∧ t.cells = s.cells)
  ∧ (∀ (a : Attempt) (r : Receiver) (s : State), s.running = true → s.tx.sending = some a →
       let c := byteAt a.chars a.index
       let busy := { s.rx with line := .busy }
       ((s.rx.state = .ready ∧ c = 0xC3
          ∧ r = { busy with state := .assembling, length := none, buffer := [], framing := false, own := true })
        ∨ (s.rx.state = .assembling ∧ s.rx.length = none ∧ 3 ≤ c.toNat ∧ c.toNat ≤ 20 ∧ r = { busy with length := some c })
        ∨ (∃ l, s.rx.state = .assembling ∧ s.rx.length = some l ∧ s.rx.buffer.length + 1 < l.toNat + 2
             ∧ r = { busy with buffer := s.rx.buffer ++ [c] })) →
       (a.stopping = false → a.index + 1 < a.chars.length →
         exec .characterReadBack s = .next ((s.setRx r).setTx { s.tx with sending := some { a with index := a.index + 1 } }))
       ∧ (a.stopping = true →
         exec .characterReadBack s = .next ((s.setRx r).setTx { s.tx with sending := none, driverEnable := false })))

/-- A collision stops the attempt and is counted: below attempt 5 the head, of whatever kind, takes the next attempt number and a
fresh backoff, and keeps its mark; at attempt 5 it is dropped with FRAME_DROPPED, cause attempts spent and 5 collisions, the next
frame becomes head, and a PRESENCE dropped with the renewal mark set is followed by a fresh one, stated of a queue that holds no
other PRESENCE (R118, R119, R113). A collision in an attempt that CLEAR has stopped ends it and is not counted (R121). In
WAIT_IDLE the receiver ignores the character read back. A collision takes the own mark from the assembly, which then goes on as
another station's (R106): the character read back is stored. Stated of an assembly that is not at its end. In READY the character
that comes back in place of the own start character is a stray, and in an assembly a length character outside 3..20 is malformed
(R102, R103, R106). That the transmitter is handled before the receiver is the model's order: notes/assumptions/7.md; the stopped
attempt: 14.md; the draw: 1.md. -/
def Obligations.CollisionsRetryOrDrop : Prop :=
  (∀ (a : Attempt) (c l : Byte) (s : State), s.running = true → s.tx.sending = some a → a.stopping = false →
     c ≠ byteAt a.chars a.index → s.rx.state = .assembling → s.rx.length = some l → s.rx.buffer.length + 1 < l.toNat + 2 →
     ∃ t, exec (.collision c false) s = .next t ∧ t.rx.state = .assembling ∧ t.rx.own = false ∧ t.rx.length = some l
       ∧ t.rx.buffer = s.rx.buffer ++ [c] ∧ t.rx.framing = s.rx.framing ∧ t.tx.sending = none)
  ∧ (∀ (a : Attempt) (c : Byte) (e : Bool) (after : LinkCounters → Receiver) (s : State),
       s.running = true → s.tx.sending = some a → (c ≠ byteAt a.chars a.index ∨ e = true) →
       let foreign := { s.rx with line := .busy, framing := s.rx.framing || e, own := false }
       ((s.rx.state = .waitIdle ∧ after = fun k => { s.rx with line := .busy, counters := k })
        ∨ (s.rx.state = .ready ∧ byteAt a.chars a.index = 0xC3
          ∧ after = fun k => emptiedReceiver s { k with stray := plusOne k.stray })
        ∨ (s.rx.state = .assembling ∧ s.rx.length = none ∧ (c.toNat < 3 ∨ 20 < c.toNat)
          ∧ after = fun k => emptiedReceiver s { k with malformed := plusOne k.malformed })
        ∨ (s.rx.state = .assembling ∧ s.rx.length = none ∧ 3 ≤ c.toNat ∧ c.toNat ≤ 20
          ∧ after = fun k => { foreign with length := some c, counters := k })
        ∨ (∃ l, s.rx.state = .assembling ∧ s.rx.length = some l ∧ s.rx.buffer.length + 1 < l.toNat + 2
          ∧ after = fun k => { foreign with buffer := s.rx.buffer ++ [c], counters := k })) →
       let k := s.rx.counters
       (a.stopping = true → exec (.collision c e) s =
         .next ((s.setRx (after k)).setTx { s.tx with sending := none, driverEnable := false }))
       ∧ (a.stopping = false → ∀ (f : Frame) (q : List Frame), s.tx.queue = f :: q →
         (f.attempt < 5 → ∃ t n, exec (.collision c e) s = .next t ∧ n < 2 ^ (f.attempt + 1)
           ∧ t.tx = { s.tx with queue := { f with attempt := f.attempt + 1 } :: q, sending := none, driverEnable := false,
                                backoff := some n }
           ∧ t.rx = after { k with collisions := plusOne k.collisions }
           ∧ t.port = s.port ∧ sameGround s t ∧ t.claims = s.claims ∧ t.presence = s.presence)
         ∧ (f.attempt = 5 → presenceAlone f q → ∃ t, exec (.collision c e) s = .next t ∧ headLeft f q s t.tx
           ∧ t.rx = after { k with collisions := plusOne k.collisions, framesDropped := plusOne k.framesDropped }
           ∧ t.port = portWith ⟨.frameDropped, s.clock.stationTime, f.body.kindCode, 1, 5⟩ s.port
           ∧ sameGround s t ∧ t.claims = s.claims ∧ t.presence = s.presence)))

/-! ### Peers and presence (R129, R130, R133 to R136) -/

/-- A PRESENT peer whose deadline lies at or before now at an increase of the second count becomes ABSENT: no deadline, one more
absence, none of its entries stays live, and PEER_ABSENT is posted last with the number of entries moved (R129, R130, R140). An
ABSENT or UNKNOWN peer, and one whose deadline lies ahead, is left (R129); that the event then changes nothing is the model's:
notes/assumptions/4.md. -/
def Obligations.SilentPeerBecomesAbsent : Prop :=
  ∀ (p : Byte) (s : State), s.running = true → isStation p = true →
    (∀ deadline : Time, s.clock.atSecond = true → (s.peer p).state = .present → (s.peer p).deadline = some deadline →
      (s.clock.stationTime - deadline).toNat < 2 ^ 31 → distinctClaims s → localityHolds s → slotAgrees s →
      p ≠ s.settings.station → (s.peer p).absences < 255 →
      ∃ t, exec (.peerDeadlineReached p) s = .next t
        ∧ (t.peer p).state = .absent ∧ (t.peer p).deadline = none ∧ (t.peer p).absences = (s.peer p).absences + 1
        ∧ (t.peer p).mark = (s.peer p).mark ∧ (t.peer p).level = (s.peer p).level
        ∧ (t.peer p).lastHeard = (s.peer p).lastHeard ∧ (∀ q, q ≠ p → t.peer q = s.peer q)
        ∧ (∀ e ∈ t.claims.entries, e.origin = p → e.state = .ending)
        ∧ (∀ e ∈ s.claims.entries, e.origin = p → e.state ≠ .ending →
            ∃ x, t.entry e.key = some x ∧ x.endCause = some .expired ∧ x.endingSince = some s.clock.stationTime)
        ∧ (s.port.events.length < 16 → (∀ e ∈ s.claims.entries, e.origin = p → e.state = .ending) →
            t.port.events = s.port.events ++
              [⟨.peerAbsent, s.clock.stationTime, p, BitVec.ofNat 8 ((s.peer p).absences + 1), 0⟩])
        ∧ (let moved := (s.claims.entries.filter fun e => e.origin = p ∧ e.state ≠ .ending).length
           s.tx.queue.length < 8 → s.port.events.length + moved < 16 →
             postedLast s.port.events
               ⟨.peerAbsent, s.clock.stationTime, p, BitVec.ofNat 8 ((s.peer p).absences + 1), BitVec.ofNat 8 moved⟩
               t.port.events)
        ∧ sameGround s t ∧ t.cues = s.cues)
    ∧ ((s.peer p).state ≠ .present ∨
        (∃ deadline, (s.peer p).deadline = some deadline ∧ 2 ^ 31 ≤ (s.clock.stationTime - deadline).toNat) →
      exec (.peerDeadlineReached p) s = .next s)

/-- When the presence timer has reached the level's period, a PRESENCE is offered and the timer returns to 0: placed where none is
held, written into the one that waits, or marked for renewal while one is in transmission (R136, R113). At a downshift test whose
timer stands at the limit: refused while a claim is live or a cue source is not IDLE, with the level and the timer as they were;
otherwise one level down, the timer 0, and a PRESENCE with the new level offered (R135). A periodic offer that falls at the same
increase is still made after the downshift (R137). That PERIODIC_PRESENCE changes nothing before an offer is due is the model's:
notes/assumptions/4.md; the mark of the offer is its own: 19.md. -/
def Obligations.PresenceIsOfferedAndDownshifts : Prop :=
  (∀ s : State, s.running = true →
     let body : FrameBody := .presence s.presence.level s.settings.fingerprint
     let zeroed := s.setPresence { s.presence with presenceTimer := 0, periodicDue := false }
     let due : Prop := s.presence.level.period ≤ s.presence.presenceTimer ∨ s.presence.periodicDue = true
     (¬ due → exec .periodicPresence s = .next s)
     ∧ (due → (∀ f ∈ s.tx.queue, f.isPresence = false) → s.tx.queue.length < 8 →
       ∃ t, exec .periodicPresence s = .next t ∧ t.presence = zeroed.presence
         ∧ t.tx.queue = insertFrame ⟨s.settings.station, s.claims.startMark, body, false, 1⟩ s.tx.queue
         ∧ t.port = s.port ∧ t.rx = s.rx ∧ t.claims = s.claims ∧ sameGround s t)
     ∧ (due → ∀ (before after : List Frame) (f : Frame),
         s.tx.queue = before ++ f :: after → f.isPresence = true → (∀ g ∈ before ++ after, g.isPresence = false) →
         exec .periodicPresence s = .next
           (if f.inTransmission then zeroed.setTx { s.tx with renewal := true }
            else zeroed.setTx { s.tx with queue := before ++ { f with body := body } :: after })))
  ∧ (∀ (limit : Nat) (s : State), s.running = true → s.presence.downshiftDue = true →
       s.presence.level.downshiftLimit = some limit → limit ≤ s.presence.downshiftTimer →
       let busy : Prop := (∃ e ∈ s.claims.entries, e.state ≠ .ending) ∨ s.cues.manual ≠ .idle
         ∨ ∃ ch ∈ s.cues.channels.toList, ch.state ≠ .idle
       let body : FrameBody := .presence s.presence.level.down s.settings.fingerprint
       (busy → exec .downshiftTest s = .next (s.setPresence { s.presence with downshiftDue := false }))
       ∧ (¬ busy → ∃ t, exec .downshiftTest s = .next t
           ∧ t.presence = { level := s.presence.level.down, downshiftTimer := 0, presenceTimer := 0, downshiftDue := false,
                            periodicDue := s.presence.periodicDue || s.presence.level.period ≤ s.presence.presenceTimer }
           ∧ ((∀ f ∈ s.tx.queue, f.isPresence = false) → s.tx.queue.length < 8 →
               t.tx.queue = insertFrame ⟨s.settings.station, s.claims.startMark, body, false, 1⟩ s.tx.queue)
           ∧ (∀ (before after : List Frame) (f : Frame), s.tx.queue = before ++ f :: after → f.isPresence = true →
               (∀ g ∈ before ++ after, g.isPresence = false) →
               t.tx = if f.inTransmission then { s.tx with renewal := true }
                      else { s.tx with queue := before ++ { f with body := body } :: after })
           ∧ sameGround s t ∧ t.claims = s.claims ∧ t.selector = s.selector ∧ t.cues = s.cues ∧ t.peers = s.peers))

/-! ### Names (R145, R146, R148) -/

/-- SET_NAME makes the pending name, with the newest known version plus 1 and the own station as origin, offers its NAME frame and
is answered ACCEPTED; it is newer than the name it was judged against, and is no activity (R145). When the repeat timer has
reached 30 with a name of own origin applied, the applied name is offered again, not the pending one, and the timer returns to 0
(R146). That NAME_REPEAT changes nothing otherwise is the model's: notes/assumptions/4.md. -/
def Obligations.OwnNamesArePendingAndRepeated : Prop :=
  (∀ (text : Text) (s : State), s.openRunning → s.tx.queue.length < 8 → isStation s.settings.station = true →
     let k := match s.names.pendingName with
       | some p => p
       | none => s.names.applied
     let n : NameRecord := { text := printableText text, version := k.version + 1, origin := s.settings.station }
     newerName n k = true ∧ ∃ t, exec (.setName text) s = .next t
       ∧ t.names = { s.names with pendingName := some n }
       ∧ t.tx.queue = insertFrame ⟨s.settings.station, s.claims.startMark, .name n.version n.text, false, 1⟩ s.tx.queue
       ∧ t.port = { s.port with output := [0xA0] } ∧ t.pending = s.pending ∧ t.loader = s.loader ∧ t.clock = s.clock
       ∧ t.settings = s.settings ∧ t.claims = s.claims ∧ t.selector = s.selector ∧ t.cues = s.cues ∧ t.rx = s.rx
       ∧ t.peers = s.peers ∧ t.presence = s.presence ∧ t.cells = s.cells ∧ t.reference = s.reference)
  ∧ (∀ s : State, s.running = true → s.tx.queue.length < 8 →
       (s.names.applied.origin = s.settings.station → 30 ≤ s.names.repeatTimer →
         ∃ t, exec .nameRepeat s = .next t ∧ t.names = { s.names with repeatTimer := 0 }
           ∧ t.tx.queue = insertFrame
               ⟨s.settings.station, s.claims.startMark, .name s.names.applied.version s.names.applied.text, false, 1⟩ s.tx.queue
           ∧ t.port = s.port ∧ t.claims = s.claims ∧ t.rx = s.rx ∧ t.presence = s.presence ∧ t.peers = s.peers)
       ∧ (s.names.applied.origin ≠ s.settings.station ∨ s.names.repeatTimer < 30 → exec .nameRepeat s = .next s))

/-! ### The cell stream (R153 to R161) -/

/-- Outside RUNNING every cell that begins is a FILL cell, whose forty bits are F0 00 00 00 03, and nothing else moves (R156); so
is the first cell of a start (R162). In RUNNING behind it, a burst cell: with the burst count 1..3 the cell is a STATE cell, the
count goes down by 1 and the position stands (R159). The STATE cell carries the on-air flag, class and waiting flag, the served
areas, the backup flag and label, and the sequence number (R154). With no burst the cell is the carousel cell at the position,
which then advances, from 5 to 0: the STATE cell at position 3, and at a position of a NAME cell of group g the cell carries
characters 3g + 1 to 3g + 3 of the display text (R155, R159). The mark of a cell boundary that waits for its cell is the model's
own field: notes/assumptions/15.md. That a load which ends before the first cell still finds a FILL cell there is the model's
choice: notes/assumptions/21.md. -/
def Obligations.CellsCarryTheirContents : Prop :=
  (∀ s : State, s.loader.resetHeld = false → (s.loader.runState ≠ .running ∨ s.cells.bit = none) → s.cells.boundaryDue = true →
     ¬ (s.reference.state = .returning ∧ s.reference.returnDue = true) →
     exec .cellBegin s = .next (s.setCells
       { s.cells with cell := 0xF000000003, bit := some 0, boundaryDue := false, dataLine := true, bitClock := true }))
  ∧ (∀ (shown : Option Entry) (s : State), s.running = true → s.cells.bit ≠ none → s.cells.boundaryDue = true →
      ¬ (s.reference.state = .returning ∧ s.reference.returnDue = true) →
      slotHolds shown s →
      let cell := stateCellWith shown s
      let begun := { s.cells with
        cell := cell, bit := some 0, boundaryDue := false, dataLine := cell.getMsbD 0, bitClock := true }
      (s.cells.burst ≠ 0 → exec .cellBegin s = .next (s.setCells { begun with burst := s.cells.burst - 1 }))
      ∧ (s.cells.burst = 0 → s.cells.position = 3 → exec .cellBegin s = .next (s.setCells { begun with position := 4 })))
  ∧ (∀ (g : Fin 4) (s : State), s.running = true → s.cells.bit ≠ none → s.cells.boundaryDue = true → s.cells.burst = 0 →
       ¬ (s.reference.state = .returning ∧ s.reference.returnDue = true) →
       s.cells.position = (#v[1, 2, 4, 5] : Vector (Fin 6) 4)[g] →
       let header : Byte := 0x20 + BitVec.ofNat 8 g.val
       let x := fun i : Nat => byteAt s.cells.displayText.toList (3 * g.val + i)
       let cell : BitVec 40 := header ++ x 0 ++ x 1 ++ x 2 ++ crc8 [header, x 0, x 1, x 2]
       exec .cellBegin s = .next (s.setCells
         { s.cells with position := (#v[2, 3, 5, 0] : Vector (Fin 6) 4)[g], cell := cell, bit := some 0, boundaryDue := false,
                        dataLine := cell.getMsbD 0, bitClock := true }))

/-- A cycle start applies the pending name first, with NAME_APPLIED and activity, and then chooses the display text: the ON_AIR
entry's label when label swap is on and it has one, else the applied name (R148, R149, R161). The cell that begins there, at
carousel position 0, is the STATE cell of this moment, its first bit on the data line (R154, R157, R159). The mark of a cell
boundary that waits for its cell is the model's own field: notes/assumptions/15.md. Stated of a boundary behind the first cell of
the start, which is a FILL cell: notes/assumptions/21.md. -/
def Obligations.CycleStartAppliesTheName : Prop :=
  ∀ s : State, s.running = true → s.cells.bit ≠ none → s.cells.boundaryDue = true → s.cells.burst = 0 → s.cells.position = 0 →
    ¬ (s.reference.state = .returning ∧ s.reference.returnDue = true) → s.port.events.length < 16 → s.tx.queue.length < 8 →
    let applied := match s.names.pendingName with
      | some n => n
      | none => s.names.applied
    ∃ t, exec .cellBegin s = .next t ∧ t.cells.position = 1 ∧ t.cells.bit = some 0 ∧ t.cells.burst = 0
      ∧ t.cells.boundaryDue = false ∧ t.cells.bitClock = true
      ∧ (∀ shown : Option Entry, slotHolds shown s →
          t.cells.cell = stateCellWith shown s ∧ t.cells.dataLine = (stateCellWith shown s).getMsbD 0)
      ∧ (∀ n, s.names.pendingName = some n →
          t.names = { s.names with applied := n, pendingName := none, repeatTimer := 0 }
          ∧ t.port.events = s.port.events ++
              [⟨.nameApplied, s.clock.stationTime, n.origin, hiByte n.version, loByte n.version⟩]
          ∧ t.presence = { level := .active, downshiftTimer := 0, presenceTimer := 0, downshiftDue := false })
      ∧ (s.names.pendingName = none → t.names = s.names ∧ t.port = s.port ∧ t.presence = s.presence ∧ t.tx = s.tx)
      ∧ (s.names.labelSwap = false ∨ s.selector.onAir = none → t.cells.displayText = applied.text)
      ∧ (∀ (e : Entry) (i : Fin 7), s.names.labelSwap = true → s.selector.onAir = some e.key → s.entry e.key = some e →
          e.label.toNat = i.val + 1 → t.cells.displayText = s.names.labels[i])
      ∧ (∀ e : Entry, s.selector.onAir = some e.key → s.entry e.key = some e → e.label = 0 →
          t.cells.displayText = applied.text)
      ∧ t.claims = s.claims ∧ t.selector = s.selector ∧ t.cues = s.cues ∧ t.peers = s.peers ∧ t.reference = s.reference

/-- The bits of a cell follow one another at the bit boundaries, from the most significant, and after the fortieth the boundary is
a cell boundary (R153, R157). The first bit boundary of a start, before any cell, is a cell boundary too, which begins the stream
(R162, R163). They fall on backup timing at each BIT_BOUNDARY, in LOCKED at each fourth rising edge. The bit clock rises at
each bit boundary, from low, and in LOCKED falls at the second edge behind it, the middle of the bit (R157). The mark of a cell
boundary that waits for its cell is the model's own field: notes/assumptions/15.md. That the middle of a bit counts as
passed at the boundary that ends it is the model's: notes/assumptions/15.md. -/
def Obligations.BitsFollowAtTheBoundaries : Prop :=
  ∀ s : State, s.loader.resetHeld = false → s.cells.boundaryDue = false →
    (s.reference.state ≠ .locked → exec .bitBoundary s = .next (s.setCells (nextBit s.cells)))
    ∧ (s.reference.state = .locked → exec .bitBoundary s = .next s)
    ∧ (s.reference.state = .locked → s.reference.awaitingEdge = false → s.reference.phaseCount ≠ 3 →
      exec .referenceEdge s = .next
        ((s.setReference { s.reference with gapTimer := 0, present := true, phaseCount := s.reference.phaseCount + 1 }).setCells
          { s.cells with bitClock := if s.reference.phaseCount = 1 then false else s.cells.bitClock }))
    ∧ (s.reference.state = .locked → s.reference.awaitingEdge = false → s.reference.phaseCount = 3 →
      exec .referenceEdge s = .next
        ((s.setReference { s.reference with gapTimer := 0, present := true, phaseCount := 0 }).setCells
          (nextBit s.cells)))

/-! ### The reference (R163 to R168) -/

/-- A gap of 5 ms in LOCKED loses the reference: LOST, not present, backup seconds 0, REFERENCE_LOST posted, and the bit boundary
falls at once: the next bit of the cell, or the first bit boundary of a start (R164, R163). While the switch waits for its edge,
the next cell is due at once instead (R167). In RETURNING it leads back to LOST, and in LOST-HELD it clears the present mark alone
(R166, R168). An edge in LOST begins RETURNING, and in RETURNING and LOST-HELD it renews the present mark alone; after 2 s the
return is due with auto-return on or the release mark set, and LOST-HELD is entered otherwise (R165, R166). The two timers' values
between their ends are not modelled: notes/assumptions/15.md. -/
def Obligations.ReferenceIsLostAndReturns : Prop :=
  (∀ s : State, s.loader.resetHeld = false →
     (s.reference.state = .locked →
       let reference := { s.reference with
         state := .lost, gapTimer := 5, present := false, backupSeconds := 0, awaitingEdge := false }
       let port := portWith ⟨.referenceLost, s.clock.stationTime, BitVec.ofNat 8 s.cells.position.val,
         BitVec.ofNat 8 s.cells.burst, 0⟩ s.port
       let lost := fun cells => exec .referenceGap s = .next (((s.setReference reference).setPort port).setCells cells)
       (s.reference.awaitingEdge = false → s.cells.boundaryDue = false → lost (nextBit s.cells))
       ∧ (s.reference.awaitingEdge = true → lost { s.cells with boundaryDue := true }))
     ∧ (s.reference.state = .returning →
       exec .referenceGap s = .next (s.setReference
         { s.reference with state := .lost, gapTimer := 5, present := false, stableTimer := 0, returnDue := false,
                            releaseMark := false }))
     ∧ (s.reference.state = .lostHeld ∨ s.reference.state = .lost →
       exec .referenceGap s = .next (s.setReference { s.reference with gapTimer := 5, present := false })))
  ∧ (∀ s : State, s.loader.resetHeld = false →
       (s.reference.state = .lost →
         exec .referenceEdge s = .next (s.setReference
           { s.reference with state := .returning, gapTimer := 0, present := true, stableTimer := 0, returnDue := false,
                              releaseMark := false }))
       ∧ (s.reference.state = .returning ∨ s.reference.state = .lostHeld →
         exec .referenceEdge s = .next (s.setReference { s.reference with gapTimer := 0, present := true }))
       ∧ (s.reference.state = .returning → s.reference.returnDue = false →
           (s.settings.autoReturn = true ∨ s.reference.releaseMark = true) →
         exec .returnComplete s = .next (s.setReference { s.reference with stableTimer := 2000, returnDue := true }))
       ∧ (s.reference.state = .returning → s.reference.returnDue = false → s.settings.autoReturn = false →
           s.reference.releaseMark = false →
         exec .returnComplete s = .next (s.setReference { s.reference with stableTimer := 2000, state := .lostHeld })))

/-- With return due the cell boundary switches to the reference: LOCKED, REFERENCE_BACK with the backup seconds and the cause,
return due and release mark cleared; the next cell's first bit waits for the first rising edge, whose phase count is 0 (R167).
The marks of a boundary and of an awaited edge are the model's own fields: notes/assumptions/15.md. -/
def Obligations.SwitchAtTheCellBoundary : Prop :=
  ∀ s : State, s.loader.resetHeld = false → s.cells.boundaryDue = true → s.reference.state = .returning →
    s.reference.returnDue = true → s.port.events.length < 16 →
    let seconds : Half := BitVec.ofNat 16 s.reference.backupSeconds
    let switched := ((s.setReference { s.reference with
        state := .locked, returnDue := false, releaseMark := false, stableTimer := 0, awaitingEdge := true }).setCells
      { s.cells with boundaryDue := false, bitClock := false }).setPort
      { s.port with events := s.port.events ++ [⟨.referenceBack, s.clock.stationTime, hiByte seconds, loByte seconds,
                                                if s.reference.releaseMark then 1 else 0⟩] }
    exec .cellBegin s = .next switched
    ∧ exec .referenceEdge switched = .next ((switched.setReference { switched.reference with
        gapTimer := 0, present := true, phaseCount := 0, awaitingEdge := false }).setCells
          { switched.cells with boundaryDue := true })

/-! ### The site port (R171 to R177, R184, R187, R190) -/

/-- EVENTS returns the count, the overflow flag as it stood and the records, oldest first, removes them and clears the flag, in
every run state (R177). Attention is asserted just while the queue holds a record and the reset pin is not held, so that EVENTS
deasserts it (R178). -/
def Obligations.EventsReturnsAndEmptiesTheQueue : Prop :=
  (∀ s : State, s.loader.resetHeld = false → s.port.restartDue = false →
    let record := fun (r : EventRecord) => r.kind.code :: timeBytes r.time ++ [r.first, r.second, r.third]
    exec .events s = .next (s.setPort { s.port with
      events := [], overflow := false,
      output := 0xA0 :: BitVec.ofNat 8 s.port.events.length :: (if s.port.overflow then 1 else 0)
        :: s.port.events.flatMap record })
    ∧ (s.port.events.flatMap record).length = 8 * s.port.events.length
    ∧ ∀ t, exec .events s = .next t → t.attention = false)
  ∧ (∀ s : State, s.attention = true ↔ s.loader.resetHeld = false ∧ s.port.events ≠ [])

/-- STATUS, in every run state, returns the status record of 55 bytes and changes nothing else, so that a second STATUS returns
the same. Its fields stand at the offsets of the table: run state, fault cause, station number, start mark, own fingerprint,
reference state and present, quiet level, on-air summary, sequence number, claim and event counts, overflow flag, applied name
version and origin, pending name held, the four holds, the eleven link counters, and the stale and outside counters (R174, R190). -/
def Obligations.StatusReturnsTheRecord : Prop :=
  ∀ s : State, s.loader.resetHeld = false → s.port.restartDue = false →
    ∃ t record, exec .status s = .next t ∧ t = s.setPort { s.port with output := 0xA0 :: record } ∧ record.length = 55
      ∧ exec .status t = .next t
      ∧ byteAt record 0 = (match s.loader.runState with | .starting => 0 | .running => 1 | .configFault => 2)
      ∧ byteAt record 1 = BitVec.ofNat 8 s.loader.faultCause
      ∧ byteAt record 2 = (if s.loader.runState = .running then s.settings.station else 0)
      ∧ byteAt record 3 = s.claims.startMark ∧ byteAt record 13 = s.selector.sequence
      ∧ byteAt record 14 = BitVec.ofNat 8 s.claims.entries.length
      ∧ (record.drop 4).take 2 =
          (if s.loader.runState = .running then halfBytes s.settings.fingerprint else [0, 0])
      ∧ byteAt record 6 = (match s.reference.state with | .locked => 0 | .lost => 1 | .returning => 2 | .lostHeld => 3)
      ∧ byteAt record 7 = (if s.reference.present then 1 else 0)
      ∧ byteAt record 8 = (match s.presence.level with | .active => 0 | .quiet1 => 1 | .quiet2 => 2 | .quiet3 => 3)
      ∧ byteAt record 16 = (if s.port.overflow then 1 else 0)
      ∧ (record.drop 17).take 2 = halfBytes s.names.applied.version
      ∧ byteAt record 20 = (if s.names.pendingName = none then 0 else 1)
      ∧ (∀ i : Fin 4, (record.drop (21 + 2 * i.val)).take 2 = halfBytes (BitVec.ofNat 16 s.settings.stages[i].hold))
      ∧ (∀ i : Fin 11, (record.drop (29 + 2 * i.val)).take 2 = halfBytes (BitVec.ofNat 16 (s.rx.counters.all.getD i.val 0)))
      ∧ (record.drop 51).take 2 = halfBytes (BitVec.ofNat 16 s.claims.stale)
      ∧ (record.drop 53).take 2 = halfBytes (BitVec.ofNat 16 s.claims.outside)
      ∧ byteAt record 15 = BitVec.ofNat 8 s.port.events.length ∧ byteAt record 19 = s.names.applied.origin
      ∧ (s.selector.onAir = none → (record.drop 9).take 4 = [0, 0, 0, 0])
      ∧ (∀ e : Entry, s.selector.onAir = some e.key → s.entry e.key = some e →
          (record.drop 9).take 4 = [e.origin, e.number, e.cls.code, BitVec.ofNat 8 e.score])

/-- CLAIMS, PEERS and CUE_HISTORY in RUNNING return their counts and records, of 1 + 19 for each entry, 310, and 3 + 10 for each
record over the four channels; CLAIMS changes nothing, PEERS sets the frames heard and absences to 0, and CUE_HISTORY removes the
closed records and clears the full marks (R84, R139, R175, R190). The CLAIMS report lists the entries once each: the ON_AIR entry,
the WAITING entries in their precedence order, each the best of those not yet listed, then the ENDING entries by ending since,
equal times in admission order (R175, R40). The bytes of a claim, peer and history record are those of the tables (R190). -/
def Obligations.ReportsReturnAndClear : Prop :=
  (∀ s : State, s.openRunning → s.claims.entries.length ≤ 16 → distinctClaims s →
     (∃ waiting ending : List Entry,
       let listed := s.claims.entries.filter (fun e => e.state == .onAir) ++ waiting ++ ending
       exec .claims s = .next (s.setPort { s.port with
         output := 0xA0 :: BitVec.ofNat 8 s.claims.entries.length :: listed.flatMap Entry.bytes })
       ∧ listed = reportOrder s ∧ (listed.flatMap Entry.bytes).length = 19 * s.claims.entries.length
       ∧ waiting.Perm (s.claims.entries.filter fun e => e.state == .waiting)
       ∧ (∀ (before after : List Entry) (e : Entry), waiting = before ++ e :: after → best (e :: after) = some e)
       ∧ ending.Perm (s.claims.entries.filter fun e => e.state == .ending)
       ∧ ending.Pairwise fun x y =>
           y.endedFor s.clock.stationTime < x.endedFor s.clock.stationTime
           ∨ (y.endedFor s.clock.stationTime = x.endedFor s.clock.stationTime ∧ [x, y].Sublist s.claims.entries))
     ∧ exec .claims s = .next (s.setPort { s.port with output := 0xA0 :: claimsReport s })
     ∧ (∃ t, exec .peers s = .next t
       ∧ t.port = { s.port with output := 0xA0 :: s.peers.toList.flatMap Peer.bytes }
       ∧ peersReport s = s.peers.toList.flatMap Peer.bytes ∧ (peersReport s).length = 310
       ∧ (∀ p : Fin 31, t.peers[p] = { s.peers[p] with framesHeard := 0, absences := 0 })
       ∧ t = (s.setPeers t.peers).setPort t.port)
     ∧ (∃ t, exec .cueHistory s = .next t
       ∧ t.port = { s.port with output := 0xA0 :: s.cues.channels.toList.flatMap Channel.bytes }
       ∧ historyReport s = s.cues.channels.toList.flatMap Channel.bytes
       ∧ (historyReport s).length = ((List.finRange 4).map fun c => 3 + 10 * s.cues.channels[c].history.length).sum
       ∧ (∀ c : Fin 4, t.cues.channels[c] =
           { s.cues.channels[c] with history := s.cues.channels[c].history.filter HistoryRecord.isOpen, full := false })
       ∧ t = (s.setCues { s.cues with channels := t.cues.channels }).setPort t.port))
  ∧ (∀ e : Entry, e.bytes =
       [e.origin, e.number,
        BitVec.ofNat 8 ((if e.isLocal then 1 else 0) + (if e.candidate then 2 else 0) + (if e.mismatchReported then 4 else 0)),
        e.source.elim 0xFF (fun c => BitVec.ofNat 8 c.val), BitVec.ofNat 8 e.cls.rank, e.areas, e.label,
        (match e.state with | .waiting => 0 | .onAir => 1 | .ending => 2)]
       ++ halfBytes (BitVec.ofNat 16 e.age)
       ++ [BitVec.ofNat 8 e.score, BitVec.ofNat 8 e.demotions, BitVec.ofNat 8 e.stagesFired, BitVec.ofNat 8 e.refreshCount,
           (match e.endCause with
            | none => 0xFF | some .released => 0 | some .expired => 1 | some .lapsed => 2 | some .localEnd => 3
            | some .restarted => 4)]
       ++ e.endingSince.elim [0, 0, 0, 0] timeBytes)
  ∧ (∀ p : Peer, p.bytes =
       [(match p.state with | .unknown => 0 | .present => 1 | .absent => 2),
        (match p.level with | .active => 0 | .quiet1 => 1 | .quiet2 => 2 | .quiet3 => 3),
        BitVec.ofNat 8 ((if p.mark = none then 0 else 1) + (if p.lastEnded = none then 0 else 2)
          + (if p.fingerprint = none then 0 else 4)
          + (if p.fingerprint ≠ none ∧ p.fingerprintMatch = some true then 8 else 0)),
        p.mark.getD 0, p.lastEnded.getD 0]
       ++ halfBytes (p.fingerprint.getD 0) ++ halfBytes (BitVec.ofNat 16 p.framesHeard) ++ [BitVec.ofNat 8 p.absences])
  ∧ (∀ ch : Channel, ch.bytes =
       [(match ch.state with | .idle => 0 | .run => 1 | .active => 2 | .blocked => 3), if ch.full then 1 else 0,
        BitVec.ofNat 8 ch.history.length]
       ++ ch.history.flatMap fun r => timeBytes r.start ++ timeBytes (r.stop.getD 0)
         ++ [(match r.outcome with
              | .opened => 0 | .released => 1 | .localEnd => 2 | .lapsed => 3 | .refused => 4 | .cleared => 5), r.number.getD 0])

/-- Outside RUNNING the port answers CLAIMS, PEERS, CUE_HISTORY, SET_NAME, MANUAL_CUE and CLEAR with REFUSED, a code outside the
table is UNKNOWN in every run state, and RESTART is ACCEPTED and waits for the rise of chip select; an abandoned transaction
returns nothing. None changes anything else (R171, R172, R189). In every transaction the part sends 0x00 in the byte times of the
command, 1 and the parameter bytes, 12 of SET_NAME and 1 of MANUAL_CUE; then the reply and the data; then 0x00. A transaction that
ends before its command's last byte sends 0x00 throughout (R171). In both directions the bits of a byte travel most significant
first, and a partial byte at the rise of chip select is discarded (R171, R188). That an abandoned transaction leaves the data
output with no byte is the model's: notes/assumptions/16.md. -/
def Obligations.PortAnswersByRunState : Prop :=
  ∀ s : State, s.loader.resetHeld = false → s.port.restartDue = false →
    let answers := fun (c : Instr) (bytes : List Byte) => exec c s = .next (s.setPort { s.port with output := bytes })
    (s.loader.runState ≠ .running →
      answers .claims [0xA3] ∧ answers .peers [0xA3] ∧ answers .cueHistory [0xA3] ∧ (∀ t, answers (.setName t) [0xA3])
      ∧ answers .manualCueStart [0xA3] ∧ answers .manualCueStop [0xA3] ∧ answers .clear [0xA3])
    ∧ (∀ code : Byte, code ∉ knownCommandCodes → answers (.unknownCommand code) [0xA4])
    ∧ exec .restart s = .next (s.setPort { s.port with output := [0xA0], restartDue := true })
    ∧ answers .transactionAbandoned []
    ∧ (∀ (code : Byte) (rest : List Byte),
        let parameters : Nat := if code = 0x10 then 12 else if code = 0x11 then 1 else 0
        ∃ t, exec (decodeTransaction (code :: rest)) s = .next t
          ∧ (∀ i, i < 1 + parameters → t.byteSent code i = 0x00)
          ∧ (∀ i, t.byteSent code (1 + parameters + i) = byteAt t.port.output i)
          ∧ (rest.length < parameters → ∀ i, t.byteSent code i = 0x00)
          ∧ (parameters ≤ rest.length → t.byteSent code (1 + parameters) ≠ 0x00)
          ∧ (∀ i j, j < 8 → t.bitSent code (8 * i + j) = (t.byteSent code i).getLsbD (7 - j)))
    ∧ (∀ (bytes : List Byte) (partialByte : List Bool), partialByte.length < 8 →
        decodeBits ((bytes.flatMap fun b => (List.range 8).map fun j => b.getLsbD (7 - j)) ++ partialByte) = decodeTransaction bytes)

/-- CLEAR as one act: the queue then holds one RELEASE with repeat index 0 for each live local entry, in admission order, ahead of
one PRESENCE carrying ACTIVE; the table is empty and the slot none, at feed 0 with enable deasserted, the sequence number one
higher and the guard stopped; a burst is requested; ON_AIR_CHANGED and CLEARED are posted; every cue source is IDLE with open
records closed as CLEARED; the counters are 0; the next number, the start mark, the peers' marks and last ended numbers, the
names, the carousel and the settings stand (R58, R83, R123, R187). -/
def Obligations.ClearEmptiesTheTables : Prop :=
  ∀ s : State, s.openRunning → s.port.events.length < 15 →
    let locals := s.claims.entries.filter fun e => e.isLocal && e.state != .ending
    locals.length ≤ 5 →
    let frame := fun (b : FrameBody) => (⟨s.settings.station, s.claims.startMark, b, false, 1⟩ : Frame)
    let old : Byte := match s.selector.onAir with
      | none => 0
      | some k => k.1
    ∃ t, exec .clear s = .next t
      ∧ t.tx.queue = locals.map (fun e => frame (.release e.number 0)) ++ [frame (.presence .active s.settings.fingerprint)]
      ∧ t.tx.renewal = false ∧ t.tx.sending = s.tx.sending.map (fun a => { a with stopping := true })
      ∧ t.claims = { s.claims with entries := [], stale := 0, outside := 0 }
      ∧ t.selector = { onAir := none, guard := none, sequence := s.selector.sequence + 1, feedSelect := 0, feedEnable := false }
      ∧ t.cells = { s.cells with burst := 3 }
      ∧ t.port.events = s.port.events ++
          [⟨.onAirChanged, s.clock.stationTime, 0, 0, old⟩,
           ⟨.cleared, s.clock.stationTime, BitVec.ofNat 8 s.claims.entries.length, BitVec.ofNat 8 locals.length, 0⟩]
      ∧ t.port.output = [0xA0]
      ∧ t.cues.manual = .idle ∧ t.cues.manualNumber = none
      ∧ (∀ c : Fin 4, t.cues.channels[c] =
          { s.cues.channels[c] with
            state := .idle, runLength := 0, highCount := 0, offCount := 0, runStart := none, number := none,
            history := s.cues.channels[c].history.map fun r =>
              if r.outcome = .opened then { r with stop := some s.clock.stationTime, outcome := .cleared } else r })
      ∧ (∀ p : Fin 31, t.peers[p] = { s.peers[p] with framesHeard := 0, absences := 0 })
      ∧ t.rx = { s.rx with counters := ⟨0, 0, 0, 0, 0, 0, 0, 0, 0, 0, 0⟩ }
      ∧ t.presence = { level := .active, downshiftTimer := 0, presenceTimer := 0, downshiftDue := false }
      ∧ t.reference = (if s.reference.state = .lostHeld ∧ s.reference.present = true then
          { s.reference with state := .returning, stableTimer := 0, returnDue := false, releaseMark := true } else s.reference)
      ∧ t.pending = s.pending ∧ t.loader = s.loader ∧ t.clock = s.clock ∧ t.settings = s.settings ∧ t.names = s.names
end

