-- ==== Sys2Proof/Laws/State.lean ====
section
/-! SUPPORT. Reading a block of the state after a block was written: one lemma per field per update, so that no later proof unfolds a
record update. -/

namespace Sys2Proof.Machine.State

variable (s : State)

@[simp] theorem setPending_pending (x : List Instr) : (s.setPending x).pending = x := rfl
@[simp] theorem setPending_loader (x : List Instr) : (s.setPending x).loader = s.loader := rfl
@[simp] theorem setPending_clock (x : List Instr) : (s.setPending x).clock = s.clock := rfl
@[simp] theorem setPending_settings (x : List Instr) : (s.setPending x).settings = s.settings := rfl
@[simp] theorem setPending_claims (x : List Instr) : (s.setPending x).claims = s.claims := rfl
@[simp] theorem setPending_selector (x : List Instr) : (s.setPending x).selector = s.selector := rfl
@[simp] theorem setPending_cues (x : List Instr) : (s.setPending x).cues = s.cues := rfl
@[simp] theorem setPending_tx (x : List Instr) : (s.setPending x).tx = s.tx := rfl
@[simp] theorem setPending_rx (x : List Instr) : (s.setPending x).rx = s.rx := rfl
@[simp] theorem setPending_peers (x : List Instr) : (s.setPending x).peers = s.peers := rfl
@[simp] theorem setPending_presence (x : List Instr) : (s.setPending x).presence = s.presence := rfl
@[simp] theorem setPending_names (x : List Instr) : (s.setPending x).names = s.names := rfl
@[simp] theorem setPending_cells (x : List Instr) : (s.setPending x).cells = s.cells := rfl
@[simp] theorem setPending_reference (x : List Instr) : (s.setPending x).reference = s.reference := rfl
@[simp] theorem setPending_port (x : List Instr) : (s.setPending x).port = s.port := rfl
@[simp] theorem setPending_draws (x : List Instr) : (s.setPending x).draws = s.draws := rfl
@[simp] theorem setPending_setPending (x y : List Instr) : (s.setPending x).setPending y = s.setPending y := rfl
@[simp] theorem setPending_self : s.setPending s.pending = s := rfl

@[simp] theorem setLoader_pending (x : Loader) : (s.setLoader x).pending = s.pending := rfl
@[simp] theorem setLoader_loader (x : Loader) : (s.setLoader x).loader = x := rfl
@[simp] theorem setLoader_clock (x : Loader) : (s.setLoader x).clock = s.clock := rfl
@[simp] theorem setLoader_settings (x : Loader) : (s.setLoader x).settings = s.settings := rfl
@[simp] theorem setLoader_claims (x : Loader) : (s.setLoader x).claims = s.claims := rfl
@[simp] theorem setLoader_selector (x : Loader) : (s.setLoader x).selector = s.selector := rfl
@[simp] theorem setLoader_cues (x : Loader) : (s.setLoader x).cues = s.cues := rfl
@[simp] theorem setLoader_tx (x : Loader) : (s.setLoader x).tx = s.tx := rfl
@[simp] theorem setLoader_rx (x : Loader) : (s.setLoader x).rx = s.rx := rfl
@[simp] theorem setLoader_peers (x : Loader) : (s.setLoader x).peers = s.peers := rfl
@[simp] theorem setLoader_presence (x : Loader) : (s.setLoader x).presence = s.presence := rfl
@[simp] theorem setLoader_names (x : Loader) : (s.setLoader x).names = s.names := rfl
@[simp] theorem setLoader_cells (x : Loader) : (s.setLoader x).cells = s.cells := rfl
@[simp] theorem setLoader_reference (x : Loader) : (s.setLoader x).reference = s.reference := rfl
@[simp] theorem setLoader_port (x : Loader) : (s.setLoader x).port = s.port := rfl
@[simp] theorem setLoader_draws (x : Loader) : (s.setLoader x).draws = s.draws := rfl
@[simp] theorem setLoader_setLoader (x y : Loader) : (s.setLoader x).setLoader y = s.setLoader y := rfl
@[simp] theorem setLoader_self : s.setLoader s.loader = s := rfl

@[simp] theorem setClock_pending (x : Clock) : (s.setClock x).pending = s.pending := rfl
@[simp] theorem setClock_loader (x : Clock) : (s.setClock x).loader = s.loader := rfl
@[simp] theorem setClock_clock (x : Clock) : (s.setClock x).clock = x := rfl
@[simp] theorem setClock_settings (x : Clock) : (s.setClock x).settings = s.settings := rfl
@[simp] theorem setClock_claims (x : Clock) : (s.setClock x).claims = s.claims := rfl
@[simp] theorem setClock_selector (x : Clock) : (s.setClock x).selector = s.selector := rfl
@[simp] theorem setClock_cues (x : Clock) : (s.setClock x).cues = s.cues := rfl
@[simp] theorem setClock_tx (x : Clock) : (s.setClock x).tx = s.tx := rfl
@[simp] theorem setClock_rx (x : Clock) : (s.setClock x).rx = s.rx := rfl
@[simp] theorem setClock_peers (x : Clock) : (s.setClock x).peers = s.peers := rfl
@[simp] theorem setClock_presence (x : Clock) : (s.setClock x).presence = s.presence := rfl
@[simp] theorem setClock_names (x : Clock) : (s.setClock x).names = s.names := rfl
@[simp] theorem setClock_cells (x : Clock) : (s.setClock x).cells = s.cells := rfl
@[simp] theorem setClock_reference (x : Clock) : (s.setClock x).reference = s.reference := rfl
@[simp] theorem setClock_port (x : Clock) : (s.setClock x).port = s.port := rfl
@[simp] theorem setClock_draws (x : Clock) : (s.setClock x).draws = s.draws := rfl
@[simp] theorem setClock_setClock (x y : Clock) : (s.setClock x).setClock y = s.setClock y := rfl
@[simp] theorem setClock_self : s.setClock s.clock = s := rfl

@[simp] theorem setSettings_pending (x : Settings) : (s.setSettings x).pending = s.pending := rfl
@[simp] theorem setSettings_loader (x : Settings) : (s.setSettings x).loader = s.loader := rfl
@[simp] theorem setSettings_clock (x : Settings) : (s.setSettings x).clock = s.clock := rfl
@[simp] theorem setSettings_settings (x : Settings) : (s.setSettings x).settings = x := rfl
@[simp] theorem setSettings_claims (x : Settings) : (s.setSettings x).claims = s.claims := rfl
@[simp] theorem setSettings_selector (x : Settings) : (s.setSettings x).selector = s.selector := rfl
@[simp] theorem setSettings_cues (x : Settings) : (s.setSettings x).cues = s.cues := rfl
@[simp] theorem setSettings_tx (x : Settings) : (s.setSettings x).tx = s.tx := rfl
@[simp] theorem setSettings_rx (x : Settings) : (s.setSettings x).rx = s.rx := rfl
@[simp] theorem setSettings_peers (x : Settings) : (s.setSettings x).peers = s.peers := rfl
@[simp] theorem setSettings_presence (x : Settings) : (s.setSettings x).presence = s.presence := rfl
@[simp] theorem setSettings_names (x : Settings) : (s.setSettings x).names = s.names := rfl
@[simp] theorem setSettings_cells (x : Settings) : (s.setSettings x).cells = s.cells := rfl
@[simp] theorem setSettings_reference (x : Settings) : (s.setSettings x).reference = s.reference := rfl
@[simp] theorem setSettings_port (x : Settings) : (s.setSettings x).port = s.port := rfl
@[simp] theorem setSettings_draws (x : Settings) : (s.setSettings x).draws = s.draws := rfl
@[simp] theorem setSettings_setSettings (x y : Settings) : (s.setSettings x).setSettings y = s.setSettings y := rfl
@[simp] theorem setSettings_self : s.setSettings s.settings = s := rfl

@[simp] theorem setClaims_pending (x : ClaimTable) : (s.setClaims x).pending = s.pending := rfl
@[simp] theorem setClaims_loader (x : ClaimTable) : (s.setClaims x).loader = s.loader := rfl
@[simp] theorem setClaims_clock (x : ClaimTable) : (s.setClaims x).clock = s.clock := rfl
@[simp] theorem setClaims_settings (x : ClaimTable) : (s.setClaims x).settings = s.settings := rfl
@[simp] theorem setClaims_claims (x : ClaimTable) : (s.setClaims x).claims = x := rfl
@[simp] theorem setClaims_selector (x : ClaimTable) : (s.setClaims x).selector = s.selector := rfl
@[simp] theorem setClaims_cues (x : ClaimTable) : (s.setClaims x).cues = s.cues := rfl
@[simp] theorem setClaims_tx (x : ClaimTable) : (s.setClaims x).tx = s.tx := rfl
@[simp] theorem setClaims_rx (x : ClaimTable) : (s.setClaims x).rx = s.rx := rfl
@[simp] theorem setClaims_peers (x : ClaimTable) : (s.setClaims x).peers = s.peers := rfl
@[simp] theorem setClaims_presence (x : ClaimTable) : (s.setClaims x).presence = s.presence := rfl
@[simp] theorem setClaims_names (x : ClaimTable) : (s.setClaims x).names = s.names := rfl
@[simp] theorem setClaims_cells (x : ClaimTable) : (s.setClaims x).cells = s.cells := rfl
@[simp] theorem setClaims_reference (x : ClaimTable) : (s.setClaims x).reference = s.reference := rfl
@[simp] theorem setClaims_port (x : ClaimTable) : (s.setClaims x).port = s.port := rfl
@[simp] theorem setClaims_draws (x : ClaimTable) : (s.setClaims x).draws = s.draws := rfl
@[simp] theorem setClaims_setClaims (x y : ClaimTable) : (s.setClaims x).setClaims y = s.setClaims y := rfl
@[simp] theorem setClaims_self : s.setClaims s.claims = s := rfl

@[simp] theorem setSelector_pending (x : Selector) : (s.setSelector x).pending = s.pending := rfl
@[simp] theorem setSelector_loader (x : Selector) : (s.setSelector x).loader = s.loader := rfl
@[simp] theorem setSelector_clock (x : Selector) : (s.setSelector x).clock = s.clock := rfl
@[simp] theorem setSelector_settings (x : Selector) : (s.setSelector x).settings = s.settings := rfl
@[simp] theorem setSelector_claims (x : Selector) : (s.setSelector x).claims = s.claims := rfl
@[simp] theorem setSelector_selector (x : Selector) : (s.setSelector x).selector = x := rfl
@[simp] theorem setSelector_cues (x : Selector) : (s.setSelector x).cues = s.cues := rfl
@[simp] theorem setSelector_tx (x : Selector) : (s.setSelector x).tx = s.tx := rfl
@[simp] theorem setSelector_rx (x : Selector) : (s.setSelector x).rx = s.rx := rfl
@[simp] theorem setSelector_peers (x : Selector) : (s.setSelector x).peers = s.peers := rfl
@[simp] theorem setSelector_presence (x : Selector) : (s.setSelector x).presence = s.presence := rfl
@[simp] theorem setSelector_names (x : Selector) : (s.setSelector x).names = s.names := rfl
@[simp] theorem setSelector_cells (x : Selector) : (s.setSelector x).cells = s.cells := rfl
@[simp] theorem setSelector_reference (x : Selector) : (s.setSelector x).reference = s.reference := rfl
@[simp] theorem setSelector_port (x : Selector) : (s.setSelector x).port = s.port := rfl
@[simp] theorem setSelector_draws (x : Selector) : (s.setSelector x).draws = s.draws := rfl
@[simp] theorem setSelector_setSelector (x y : Selector) : (s.setSelector x).setSelector y = s.setSelector y := rfl
@[simp] theorem setSelector_self : s.setSelector s.selector = s := rfl

@[simp] theorem setCues_pending (x : CueFrontEnd) : (s.setCues x).pending = s.pending := rfl
@[simp] theorem setCues_loader (x : CueFrontEnd) : (s.setCues x).loader = s.loader := rfl
@[simp] theorem setCues_clock (x : CueFrontEnd) : (s.setCues x).clock = s.clock := rfl
@[simp] theorem setCues_settings (x : CueFrontEnd) : (s.setCues x).settings = s.settings := rfl
@[simp] theorem setCues_claims (x : CueFrontEnd) : (s.setCues x).claims = s.claims := rfl
@[simp] theorem setCues_selector (x : CueFrontEnd) : (s.setCues x).selector = s.selector := rfl
@[simp] theorem setCues_cues (x : CueFrontEnd) : (s.setCues x).cues = x := rfl
@[simp] theorem setCues_tx (x : CueFrontEnd) : (s.setCues x).tx = s.tx := rfl
@[simp] theorem setCues_rx (x : CueFrontEnd) : (s.setCues x).rx = s.rx := rfl
@[simp] theorem setCues_peers (x : CueFrontEnd) : (s.setCues x).peers = s.peers := rfl
@[simp] theorem setCues_presence (x : CueFrontEnd) : (s.setCues x).presence = s.presence := rfl
@[simp] theorem setCues_names (x : CueFrontEnd) : (s.setCues x).names = s.names := rfl
@[simp] theorem setCues_cells (x : CueFrontEnd) : (s.setCues x).cells = s.cells := rfl
@[simp] theorem setCues_reference (x : CueFrontEnd) : (s.setCues x).reference = s.reference := rfl
@[simp] theorem setCues_port (x : CueFrontEnd) : (s.setCues x).port = s.port := rfl
@[simp] theorem setCues_draws (x : CueFrontEnd) : (s.setCues x).draws = s.draws := rfl
@[simp] theorem setCues_setCues (x y : CueFrontEnd) : (s.setCues x).setCues y = s.setCues y := rfl
@[simp] theorem setCues_self : s.setCues s.cues = s := rfl

@[simp] theorem setTx_pending (x : Transmitter) : (s.setTx x).pending = s.pending := rfl
@[simp] theorem setTx_loader (x : Transmitter) : (s.setTx x).loader = s.loader := rfl
@[simp] theorem setTx_clock (x : Transmitter) : (s.setTx x).clock = s.clock := rfl
@[simp] theorem setTx_settings (x : Transmitter) : (s.setTx x).settings = s.settings := rfl
@[simp] theorem setTx_claims (x : Transmitter) : (s.setTx x).claims = s.claims := rfl
@[simp] theorem setTx_selector (x : Transmitter) : (s.setTx x).selector = s.selector := rfl
@[simp] theorem setTx_cues (x : Transmitter) : (s.setTx x).cues = s.cues := rfl
@[simp] theorem setTx_tx (x : Transmitter) : (s.setTx x).tx = x := rfl
@[simp] theorem setTx_rx (x : Transmitter) : (s.setTx x).rx = s.rx := rfl
@[simp] theorem setTx_peers (x : Transmitter) : (s.setTx x).peers = s.peers := rfl
@[simp] theorem setTx_presence (x : Transmitter) : (s.setTx x).presence = s.presence := rfl
@[simp] theorem setTx_names (x : Transmitter) : (s.setTx x).names = s.names := rfl
@[simp] theorem setTx_cells (x : Transmitter) : (s.setTx x).cells = s.cells := rfl
@[simp] theorem setTx_reference (x : Transmitter) : (s.setTx x).reference = s.reference := rfl
@[simp] theorem setTx_port (x : Transmitter) : (s.setTx x).port = s.port := rfl
@[simp] theorem setTx_draws (x : Transmitter) : (s.setTx x).draws = s.draws := rfl
@[simp] theorem setTx_setTx (x y : Transmitter) : (s.setTx x).setTx y = s.setTx y := rfl
@[simp] theorem setTx_self : s.setTx s.tx = s := rfl

@[simp] theorem setRx_pending (x : Receiver) : (s.setRx x).pending = s.pending := rfl
@[simp] theorem setRx_loader (x : Receiver) : (s.setRx x).loader = s.loader := rfl
@[simp] theorem setRx_clock (x : Receiver) : (s.setRx x).clock = s.clock := rfl
@[simp] theorem setRx_settings (x : Receiver) : (s.setRx x).settings = s.settings := rfl
@[simp] theorem setRx_claims (x : Receiver) : (s.setRx x).claims = s.claims := rfl
@[simp] theorem setRx_selector (x : Receiver) : (s.setRx x).selector = s.selector := rfl
@[simp] theorem setRx_cues (x : Receiver) : (s.setRx x).cues = s.cues := rfl
@[simp] theorem setRx_tx (x : Receiver) : (s.setRx x).tx = s.tx := rfl
@[simp] theorem setRx_rx (x : Receiver) : (s.setRx x).rx = x := rfl
@[simp] theorem setRx_peers (x : Receiver) : (s.setRx x).peers = s.peers := rfl
@[simp] theorem setRx_presence (x : Receiver) : (s.setRx x).presence = s.presence := rfl
@[simp] theorem setRx_names (x : Receiver) : (s.setRx x).names = s.names := rfl
@[simp] theorem setRx_cells (x : Receiver) : (s.setRx x).cells = s.cells := rfl
@[simp] theorem setRx_reference (x : Receiver) : (s.setRx x).reference = s.reference := rfl
@[simp] theorem setRx_port (x : Receiver) : (s.setRx x).port = s.port := rfl
@[simp] theorem setRx_draws (x : Receiver) : (s.setRx x).draws = s.draws := rfl
@[simp] theorem setRx_setRx (x y : Receiver) : (s.setRx x).setRx y = s.setRx y := rfl
@[simp] theorem setRx_self : s.setRx s.rx = s := rfl

@[simp] theorem setPeers_pending (x : Vector Peer 31) : (s.setPeers x).pending = s.pending := rfl
@[simp] theorem setPeers_loader (x : Vector Peer 31) : (s.setPeers x).loader = s.loader := rfl
@[simp] theorem setPeers_clock (x : Vector Peer 31) : (s.setPeers x).clock = s.clock := rfl
@[simp] theorem setPeers_settings (x : Vector Peer 31) : (s.setPeers x).settings = s.settings := rfl
@[simp] theorem setPeers_claims (x : Vector Peer 31) : (s.setPeers x).claims = s.claims := rfl
@[simp] theorem setPeers_selector (x : Vector Peer 31) : (s.setPeers x).selector = s.selector := rfl
@[simp] theorem setPeers_cues (x : Vector Peer 31) : (s.setPeers x).cues = s.cues := rfl
@[simp] theorem setPeers_tx (x : Vector Peer 31) : (s.setPeers x).tx = s.tx := rfl
@[simp] theorem setPeers_rx (x : Vector Peer 31) : (s.setPeers x).rx = s.rx := rfl
@[simp] theorem setPeers_peers (x : Vector Peer 31) : (s.setPeers x).peers = x := rfl
@[simp] theorem setPeers_presence (x : Vector Peer 31) : (s.setPeers x).presence = s.presence := rfl
@[simp] theorem setPeers_names (x : Vector Peer 31) : (s.setPeers x).names = s.names := rfl
@[simp] theorem setPeers_cells (x : Vector Peer 31) : (s.setPeers x).cells = s.cells := rfl
@[simp] theorem setPeers_reference (x : Vector Peer 31) : (s.setPeers x).reference = s.reference := rfl
@[simp] theorem setPeers_port (x : Vector Peer 31) : (s.setPeers x).port = s.port := rfl
@[simp] theorem setPeers_draws (x : Vector Peer 31) : (s.setPeers x).draws = s.draws := rfl
@[simp] theorem setPeers_setPeers (x y : Vector Peer 31) : (s.setPeers x).setPeers y = s.setPeers y := rfl
@[simp] theorem setPeers_self : s.setPeers s.peers = s := rfl

@[simp] theorem setPresence_pending (x : Presence) : (s.setPresence x).pending = s.pending := rfl
@[simp] theorem setPresence_loader (x : Presence) : (s.setPresence x).loader = s.loader := rfl
@[simp] theorem setPresence_clock (x : Presence) : (s.setPresence x).clock = s.clock := rfl
@[simp] theorem setPresence_settings (x : Presence) : (s.setPresence x).settings = s.settings := rfl
@[simp] theorem setPresence_claims (x : Presence) : (s.setPresence x).claims = s.claims := rfl
@[simp] theorem setPresence_selector (x : Presence) : (s.setPresence x).selector = s.selector := rfl
@[simp] theorem setPresence_cues (x : Presence) : (s.setPresence x).cues = s.cues := rfl
@[simp] theorem setPresence_tx (x : Presence) : (s.setPresence x).tx = s.tx := rfl
@[simp] theorem setPresence_rx (x : Presence) : (s.setPresence x).rx = s.rx := rfl
@[simp] theorem setPresence_peers (x : Presence) : (s.setPresence x).peers = s.peers := rfl
@[simp] theorem setPresence_presence (x : Presence) : (s.setPresence x).presence = x := rfl
@[simp] theorem setPresence_names (x : Presence) : (s.setPresence x).names = s.names := rfl
@[simp] theorem setPresence_cells (x : Presence) : (s.setPresence x).cells = s.cells := rfl
@[simp] theorem setPresence_reference (x : Presence) : (s.setPresence x).reference = s.reference := rfl
@[simp] theorem setPresence_port (x : Presence) : (s.setPresence x).port = s.port := rfl
@[simp] theorem setPresence_draws (x : Presence) : (s.setPresence x).draws = s.draws := rfl
@[simp] theorem setPresence_setPresence (x y : Presence) : (s.setPresence x).setPresence y = s.setPresence y := rfl
@[simp] theorem setPresence_self : s.setPresence s.presence = s := rfl

@[simp] theorem setNames_pending (x : NameStore) : (s.setNames x).pending = s.pending := rfl
@[simp] theorem setNames_loader (x : NameStore) : (s.setNames x).loader = s.loader := rfl
@[simp] theorem setNames_clock (x : NameStore) : (s.setNames x).clock = s.clock := rfl
@[simp] theorem setNames_settings (x : NameStore) : (s.setNames x).settings = s.settings := rfl
@[simp] theorem setNames_claims (x : NameStore) : (s.setNames x).claims = s.claims := rfl
@[simp] theorem setNames_selector (x : NameStore) : (s.setNames x).selector = s.selector := rfl
@[simp] theorem setNames_cues (x : NameStore) : (s.setNames x).cues = s.cues := rfl
@[simp] theorem setNames_tx (x : NameStore) : (s.setNames x).tx = s.tx := rfl
@[simp] theorem setNames_rx (x : NameStore) : (s.setNames x).rx = s.rx := rfl
@[simp] theorem setNames_peers (x : NameStore) : (s.setNames x).peers = s.peers := rfl
@[simp] theorem setNames_presence (x : NameStore) : (s.setNames x).presence = s.presence := rfl
@[simp] theorem setNames_names (x : NameStore) : (s.setNames x).names = x := rfl
@[simp] theorem setNames_cells (x : NameStore) : (s.setNames x).cells = s.cells := rfl
@[simp] theorem setNames_reference (x : NameStore) : (s.setNames x).reference = s.reference := rfl
@[simp] theorem setNames_port (x : NameStore) : (s.setNames x).port = s.port := rfl
@[simp] theorem setNames_draws (x : NameStore) : (s.setNames x).draws = s.draws := rfl
@[simp] theorem setNames_setNames (x y : NameStore) : (s.setNames x).setNames y = s.setNames y := rfl
@[simp] theorem setNames_self : s.setNames s.names = s := rfl

@[simp] theorem setCells_pending (x : CellGenerator) : (s.setCells x).pending = s.pending := rfl
@[simp] theorem setCells_loader (x : CellGenerator) : (s.setCells x).loader = s.loader := rfl
@[simp] theorem setCells_clock (x : CellGenerator) : (s.setCells x).clock = s.clock := rfl
@[simp] theorem setCells_settings (x : CellGenerator) : (s.setCells x).settings = s.settings := rfl
@[simp] theorem setCells_claims (x : CellGenerator) : (s.setCells x).claims = s.claims := rfl
@[simp] theorem setCells_selector (x : CellGenerator) : (s.setCells x).selector = s.selector := rfl
@[simp] theorem setCells_cues (x : CellGenerator) : (s.setCells x).cues = s.cues := rfl
@[simp] theorem setCells_tx (x : CellGenerator) : (s.setCells x).tx = s.tx := rfl
@[simp] theorem setCells_rx (x : CellGenerator) : (s.setCells x).rx = s.rx := rfl
@[simp] theorem setCells_peers (x : CellGenerator) : (s.setCells x).peers = s.peers := rfl
@[simp] theorem setCells_presence (x : CellGenerator) : (s.setCells x).presence = s.presence := rfl
@[simp] theorem setCells_names (x : CellGenerator) : (s.setCells x).names = s.names := rfl
@[simp] theorem setCells_cells (x : CellGenerator) : (s.setCells x).cells = x := rfl
@[simp] theorem setCells_reference (x : CellGenerator) : (s.setCells x).reference = s.reference := rfl
@[simp] theorem setCells_port (x : CellGenerator) : (s.setCells x).port = s.port := rfl
@[simp] theorem setCells_draws (x : CellGenerator) : (s.setCells x).draws = s.draws := rfl
@[simp] theorem setCells_setCells (x y : CellGenerator) : (s.setCells x).setCells y = s.setCells y := rfl
@[simp] theorem setCells_self : s.setCells s.cells = s := rfl

@[simp] theorem setReference_pending (x : ReferenceMonitor) : (s.setReference x).pending = s.pending := rfl
@[simp] theorem setReference_loader (x : ReferenceMonitor) : (s.setReference x).loader = s.loader := rfl
@[simp] theorem setReference_clock (x : ReferenceMonitor) : (s.setReference x).clock = s.clock := rfl
@[simp] theorem setReference_settings (x : ReferenceMonitor) : (s.setReference x).settings = s.settings := rfl
@[simp] theorem setReference_claims (x : ReferenceMonitor) : (s.setReference x).claims = s.claims := rfl
@[simp] theorem setReference_selector (x : ReferenceMonitor) : (s.setReference x).selector = s.selector := rfl
@[simp] theorem setReference_cues (x : ReferenceMonitor) : (s.setReference x).cues = s.cues := rfl
@[simp] theorem setReference_tx (x : ReferenceMonitor) : (s.setReference x).tx = s.tx := rfl
@[simp] theorem setReference_rx (x : ReferenceMonitor) : (s.setReference x).rx = s.rx := rfl
@[simp] theorem setReference_peers (x : ReferenceMonitor) : (s.setReference x).peers = s.peers := rfl
@[simp] theorem setReference_presence (x : ReferenceMonitor) : (s.setReference x).presence = s.presence := rfl
@[simp] theorem setReference_names (x : ReferenceMonitor) : (s.setReference x).names = s.names := rfl
@[simp] theorem setReference_cells (x : ReferenceMonitor) : (s.setReference x).cells = s.cells := rfl
@[simp] theorem setReference_reference (x : ReferenceMonitor) : (s.setReference x).reference = x := rfl
@[simp] theorem setReference_port (x : ReferenceMonitor) : (s.setReference x).port = s.port := rfl
@[simp] theorem setReference_draws (x : ReferenceMonitor) : (s.setReference x).draws = s.draws := rfl
@[simp] theorem setReference_setReference (x y : ReferenceMonitor) : (s.setReference x).setReference y = s.setReference y := rfl
@[simp] theorem setReference_self : s.setReference s.reference = s := rfl

@[simp] theorem setPort_pending (x : SitePort) : (s.setPort x).pending = s.pending := rfl
@[simp] theorem setPort_loader (x : SitePort) : (s.setPort x).loader = s.loader := rfl
@[simp] theorem setPort_clock (x : SitePort) : (s.setPort x).clock = s.clock := rfl
@[simp] theorem setPort_settings (x : SitePort) : (s.setPort x).settings = s.settings := rfl
@[simp] theorem setPort_claims (x : SitePort) : (s.setPort x).claims = s.claims := rfl
@[simp] theorem setPort_selector (x : SitePort) : (s.setPort x).selector = s.selector := rfl
@[simp] theorem setPort_cues (x : SitePort) : (s.setPort x).cues = s.cues := rfl
@[simp] theorem setPort_tx (x : SitePort) : (s.setPort x).tx = s.tx := rfl
@[simp] theorem setPort_rx (x : SitePort) : (s.setPort x).rx = s.rx := rfl
@[simp] theorem setPort_peers (x : SitePort) : (s.setPort x).peers = s.peers := rfl
@[simp] theorem setPort_presence (x : SitePort) : (s.setPort x).presence = s.presence := rfl
@[simp] theorem setPort_names (x : SitePort) : (s.setPort x).names = s.names := rfl
@[simp] theorem setPort_cells (x : SitePort) : (s.setPort x).cells = s.cells := rfl
@[simp] theorem setPort_reference (x : SitePort) : (s.setPort x).reference = s.reference := rfl
@[simp] theorem setPort_port (x : SitePort) : (s.setPort x).port = x := rfl
@[simp] theorem setPort_draws (x : SitePort) : (s.setPort x).draws = s.draws := rfl
@[simp] theorem setPort_setPort (x y : SitePort) : (s.setPort x).setPort y = s.setPort y := rfl
@[simp] theorem setPort_self : s.setPort s.port = s := rfl

@[simp] theorem setDraws_pending (x : Nat) : (s.setDraws x).pending = s.pending := rfl
@[simp] theorem setDraws_loader (x : Nat) : (s.setDraws x).loader = s.loader := rfl
@[simp] theorem setDraws_clock (x : Nat) : (s.setDraws x).clock = s.clock := rfl
@[simp] theorem setDraws_settings (x : Nat) : (s.setDraws x).settings = s.settings := rfl
@[simp] theorem setDraws_claims (x : Nat) : (s.setDraws x).claims = s.claims := rfl
@[simp] theorem setDraws_selector (x : Nat) : (s.setDraws x).selector = s.selector := rfl
@[simp] theorem setDraws_cues (x : Nat) : (s.setDraws x).cues = s.cues := rfl
@[simp] theorem setDraws_tx (x : Nat) : (s.setDraws x).tx = s.tx := rfl
@[simp] theorem setDraws_rx (x : Nat) : (s.setDraws x).rx = s.rx := rfl
@[simp] theorem setDraws_peers (x : Nat) : (s.setDraws x).peers = s.peers := rfl
@[simp] theorem setDraws_presence (x : Nat) : (s.setDraws x).presence = s.presence := rfl
@[simp] theorem setDraws_names (x : Nat) : (s.setDraws x).names = s.names := rfl
@[simp] theorem setDraws_cells (x : Nat) : (s.setDraws x).cells = s.cells := rfl
@[simp] theorem setDraws_reference (x : Nat) : (s.setDraws x).reference = s.reference := rfl
@[simp] theorem setDraws_port (x : Nat) : (s.setDraws x).port = s.port := rfl
@[simp] theorem setDraws_draws (x : Nat) : (s.setDraws x).draws = x := rfl
@[simp] theorem setDraws_setDraws (x y : Nat) : (s.setDraws x).setDraws y = s.setDraws y := rfl
@[simp] theorem setDraws_self : s.setDraws s.draws = s := rfl

end Sys2Proof.Machine.State
end

