-- ==== Sys2Proof/Laws/Ops.lean ====
section
/-! SUPPORT. What each shared operation leaves as it was: one lemma per operation, so that no later proof unfolds one for a frame. -/

namespace Sys2Proof.Machine

/-- Posting an event writes the Site Port alone. -/
@[simp] theorem postEvent_keeps (kind : EventKind) (a b c : Byte) (s : State) :
    (postEvent kind a b c s).pending = s.pending ∧ (postEvent kind a b c s).loader = s.loader ∧
    (postEvent kind a b c s).clock = s.clock ∧ (postEvent kind a b c s).settings = s.settings ∧
    (postEvent kind a b c s).claims = s.claims ∧ (postEvent kind a b c s).selector = s.selector ∧
    (postEvent kind a b c s).cues = s.cues ∧ (postEvent kind a b c s).tx = s.tx ∧ (postEvent kind a b c s).rx = s.rx ∧
    (postEvent kind a b c s).peers = s.peers ∧ (postEvent kind a b c s).presence = s.presence ∧
    (postEvent kind a b c s).names = s.names ∧ (postEvent kind a b c s).cells = s.cells ∧
    (postEvent kind a b c s).reference = s.reference ∧ (postEvent kind a b c s).draws = s.draws := by
  simp only [postEvent]
  (repeat' split) <;> simp

/-- A return at the port writes the Site Port alone. -/
@[simp] theorem portReturns_keeps (bytes : List Byte) (s : State) :
    (portReturns bytes s).pending = s.pending ∧ (portReturns bytes s).loader = s.loader ∧
    (portReturns bytes s).clock = s.clock ∧ (portReturns bytes s).settings = s.settings ∧
    (portReturns bytes s).claims = s.claims ∧ (portReturns bytes s).selector = s.selector ∧
    (portReturns bytes s).cues = s.cues ∧ (portReturns bytes s).tx = s.tx ∧ (portReturns bytes s).rx = s.rx ∧
    (portReturns bytes s).peers = s.peers ∧ (portReturns bytes s).presence = s.presence ∧
    (portReturns bytes s).names = s.names ∧ (portReturns bytes s).cells = s.cells ∧
    (portReturns bytes s).reference = s.reference ∧ (portReturns bytes s).draws = s.draws := by
  simp [portReturns]

/-- A reply writes the Site Port alone. -/
@[simp] theorem answer_keeps (r : Reply) (s : State) :
    (answer r s).pending = s.pending ∧ (answer r s).loader = s.loader ∧ (answer r s).clock = s.clock ∧
    (answer r s).settings = s.settings ∧ (answer r s).claims = s.claims ∧ (answer r s).selector = s.selector ∧
    (answer r s).cues = s.cues ∧ (answer r s).tx = s.tx ∧ (answer r s).rx = s.rx ∧ (answer r s).peers = s.peers ∧
    (answer r s).presence = s.presence ∧ (answer r s).names = s.names ∧ (answer r s).cells = s.cells ∧
    (answer r s).reference = s.reference ∧ (answer r s).draws = s.draws := by
  simp [answer]

/-- A link counter belongs to the Link Receiver. -/
@[simp] theorem countLink_keeps (f : LinkCounters → LinkCounters) (s : State) :
    (countLink f s).pending = s.pending ∧ (countLink f s).loader = s.loader ∧ (countLink f s).clock = s.clock ∧
    (countLink f s).settings = s.settings ∧ (countLink f s).claims = s.claims ∧ (countLink f s).selector = s.selector ∧
    (countLink f s).cues = s.cues ∧ (countLink f s).tx = s.tx ∧ (countLink f s).peers = s.peers ∧
    (countLink f s).presence = s.presence ∧ (countLink f s).names = s.names ∧ (countLink f s).cells = s.cells ∧
    (countLink f s).reference = s.reference ∧ (countLink f s).port = s.port ∧ (countLink f s).draws = s.draws := by
  simp [countLink]

/-- The malformed counter belongs to the Link Receiver. -/
@[simp] theorem countMalformed_keeps (s : State) :
    (countMalformed s).pending = s.pending ∧ (countMalformed s).loader = s.loader ∧ (countMalformed s).clock = s.clock ∧
    (countMalformed s).settings = s.settings ∧ (countMalformed s).claims = s.claims ∧
    (countMalformed s).selector = s.selector ∧ (countMalformed s).cues = s.cues ∧ (countMalformed s).tx = s.tx ∧
    (countMalformed s).peers = s.peers ∧ (countMalformed s).presence = s.presence ∧ (countMalformed s).names = s.names ∧
    (countMalformed s).cells = s.cells ∧ (countMalformed s).reference = s.reference ∧ (countMalformed s).port = s.port ∧
    (countMalformed s).draws = s.draws := by
  simp [countMalformed]

/-- Writing the queue writes the Link Transmitter alone. -/
@[simp] theorem setQueue_keeps (q : List Frame) (s : State) :
    (setQueue q s).pending = s.pending ∧ (setQueue q s).loader = s.loader ∧ (setQueue q s).clock = s.clock ∧
    (setQueue q s).settings = s.settings ∧ (setQueue q s).claims = s.claims ∧ (setQueue q s).selector = s.selector ∧
    (setQueue q s).cues = s.cues ∧ (setQueue q s).rx = s.rx ∧ (setQueue q s).peers = s.peers ∧
    (setQueue q s).presence = s.presence ∧ (setQueue q s).names = s.names ∧ (setQueue q s).cells = s.cells ∧
    (setQueue q s).reference = s.reference ∧ (setQueue q s).port = s.port ∧ (setQueue q s).draws = s.draws := by
  simp [setQueue]

/-- A backoff draw writes the Link Transmitter and takes a random value. -/
@[simp] theorem drawBackoff_keeps (s : State) :
    (drawBackoff s).pending = s.pending ∧ (drawBackoff s).loader = s.loader ∧ (drawBackoff s).clock = s.clock ∧
    (drawBackoff s).settings = s.settings ∧ (drawBackoff s).claims = s.claims ∧ (drawBackoff s).selector = s.selector ∧
    (drawBackoff s).cues = s.cues ∧ (drawBackoff s).rx = s.rx ∧ (drawBackoff s).peers = s.peers ∧
    (drawBackoff s).presence = s.presence ∧ (drawBackoff s).names = s.names ∧ (drawBackoff s).cells = s.cells ∧
    (drawBackoff s).reference = s.reference ∧ (drawBackoff s).port = s.port := by
  simp only [drawBackoff]
  (repeat' split) <;> simp

/-- Placing a frame writes the Link Transmitter and may take a random value. -/
@[simp] theorem placeFrame_keeps (f : Frame) (s : State) :
    (placeFrame f s).pending = s.pending ∧ (placeFrame f s).loader = s.loader ∧ (placeFrame f s).clock = s.clock ∧
    (placeFrame f s).settings = s.settings ∧ (placeFrame f s).claims = s.claims ∧ (placeFrame f s).selector = s.selector ∧
    (placeFrame f s).cues = s.cues ∧ (placeFrame f s).rx = s.rx ∧ (placeFrame f s).peers = s.peers ∧
    (placeFrame f s).presence = s.presence ∧ (placeFrame f s).names = s.names ∧ (placeFrame f s).cells = s.cells ∧
    (placeFrame f s).reference = s.reference ∧ (placeFrame f s).port = s.port := by
  simp only [placeFrame]
  (repeat' split) <;> simp

/-- A dropped frame is an event and a count. -/
@[simp] theorem frameDropped_keeps (body : FrameBody) (a b : Byte) (s : State) :
    (frameDropped body a b s).pending = s.pending ∧ (frameDropped body a b s).loader = s.loader ∧
    (frameDropped body a b s).clock = s.clock ∧ (frameDropped body a b s).settings = s.settings ∧
    (frameDropped body a b s).claims = s.claims ∧ (frameDropped body a b s).selector = s.selector ∧
    (frameDropped body a b s).cues = s.cues ∧ (frameDropped body a b s).tx = s.tx ∧ (frameDropped body a b s).peers = s.peers ∧
    (frameDropped body a b s).presence = s.presence ∧ (frameDropped body a b s).names = s.names ∧
    (frameDropped body a b s).cells = s.cells ∧ (frameDropped body a b s).reference = s.reference ∧
    (frameDropped body a b s).draws = s.draws := by
  simp [frameDropped]

/-- An offer writes the two link blocks, the port and the count of draws. -/
@[simp] theorem offerFrame_keeps (f : Frame) (s : State) :
    (offerFrame f s).pending = s.pending ∧ (offerFrame f s).loader = s.loader ∧ (offerFrame f s).clock = s.clock ∧
    (offerFrame f s).settings = s.settings ∧ (offerFrame f s).claims = s.claims ∧ (offerFrame f s).selector = s.selector ∧
    (offerFrame f s).cues = s.cues ∧ (offerFrame f s).peers = s.peers ∧ (offerFrame f s).presence = s.presence ∧
    (offerFrame f s).names = s.names ∧ (offerFrame f s).cells = s.cells ∧ (offerFrame f s).reference = s.reference := by
  simp only [offerFrame]
  (repeat' split) <;> simp

/-- An offer writes the two link blocks, the port and the count of draws. -/
@[simp] theorem offer_keeps (body : FrameBody) (s : State) :
    (offer body s).pending = s.pending ∧ (offer body s).loader = s.loader ∧ (offer body s).clock = s.clock ∧
    (offer body s).settings = s.settings ∧ (offer body s).claims = s.claims ∧ (offer body s).selector = s.selector ∧
    (offer body s).cues = s.cues ∧ (offer body s).peers = s.peers ∧ (offer body s).presence = s.presence ∧
    (offer body s).names = s.names ∧ (offer body s).cells = s.cells ∧ (offer body s).reference = s.reference := by
  simp only [offer]
  (repeat' split) <;> simp

/-- An offer of the Presence Scheduler writes its own block besides those of any offer. -/
@[simp] theorem offerPresence_keeps (s : State) :
    (offerPresence s).pending = s.pending ∧ (offerPresence s).loader = s.loader ∧ (offerPresence s).clock = s.clock ∧
    (offerPresence s).settings = s.settings ∧ (offerPresence s).claims = s.claims ∧ (offerPresence s).selector = s.selector ∧
    (offerPresence s).cues = s.cues ∧ (offerPresence s).peers = s.peers ∧ (offerPresence s).names = s.names ∧
    (offerPresence s).cells = s.cells ∧ (offerPresence s).reference = s.reference := by
  simp [offerPresence]

/-- Activity writes what an offer of the Presence Scheduler writes. -/
@[simp] theorem activity_keeps (s : State) :
    (activity s).pending = s.pending ∧ (activity s).loader = s.loader ∧ (activity s).clock = s.clock ∧
    (activity s).settings = s.settings ∧ (activity s).claims = s.claims ∧ (activity s).selector = s.selector ∧
    (activity s).cues = s.cues ∧ (activity s).peers = s.peers ∧ (activity s).names = s.names ∧ (activity s).cells = s.cells ∧
    (activity s).reference = s.reference := by
  simp [activity]

/-- A change of a peer entry writes the Peer Table alone. -/
@[simp] theorem updatePeer_keeps (p : Byte) (f : Peer → Peer) (s : State) :
    (updatePeer p f s).pending = s.pending ∧ (updatePeer p f s).loader = s.loader ∧ (updatePeer p f s).clock = s.clock ∧
    (updatePeer p f s).settings = s.settings ∧ (updatePeer p f s).claims = s.claims ∧
    (updatePeer p f s).selector = s.selector ∧ (updatePeer p f s).cues = s.cues ∧ (updatePeer p f s).tx = s.tx ∧
    (updatePeer p f s).rx = s.rx ∧ (updatePeer p f s).presence = s.presence ∧ (updatePeer p f s).names = s.names ∧
    (updatePeer p f s).cells = s.cells ∧ (updatePeer p f s).reference = s.reference ∧ (updatePeer p f s).port = s.port ∧
    (updatePeer p f s).draws = s.draws := by
  simp only [updatePeer]
  (repeat' split) <;> simp

/-- The last ended number belongs to the Peer Table. -/
@[simp] theorem noteEnded_keeps (origin number : Byte) (s : State) :
    (noteEnded origin number s).pending = s.pending ∧ (noteEnded origin number s).loader = s.loader ∧
    (noteEnded origin number s).clock = s.clock ∧ (noteEnded origin number s).settings = s.settings ∧
    (noteEnded origin number s).claims = s.claims ∧ (noteEnded origin number s).selector = s.selector ∧
    (noteEnded origin number s).cues = s.cues ∧ (noteEnded origin number s).tx = s.tx ∧ (noteEnded origin number s).rx = s.rx ∧
    (noteEnded origin number s).presence = s.presence ∧ (noteEnded origin number s).names = s.names ∧
    (noteEnded origin number s).cells = s.cells ∧ (noteEnded origin number s).reference = s.reference ∧
    (noteEnded origin number s).port = s.port ∧ (noteEnded origin number s).draws = s.draws := by
  simp [noteEnded]

/-- Writing the entries writes the Claim Table alone. -/
@[simp] theorem setEntries_keeps (l : List Entry) (s : State) :
    (setEntries l s).pending = s.pending ∧ (setEntries l s).loader = s.loader ∧ (setEntries l s).clock = s.clock ∧
    (setEntries l s).settings = s.settings ∧ (setEntries l s).selector = s.selector ∧ (setEntries l s).cues = s.cues ∧
    (setEntries l s).tx = s.tx ∧ (setEntries l s).rx = s.rx ∧ (setEntries l s).peers = s.peers ∧
    (setEntries l s).presence = s.presence ∧ (setEntries l s).names = s.names ∧ (setEntries l s).cells = s.cells ∧
    (setEntries l s).reference = s.reference ∧ (setEntries l s).port = s.port ∧ (setEntries l s).draws = s.draws := by
  simp [setEntries]

/-- A change of an entry writes the Claim Table alone. -/
@[simp] theorem updateEntry_keeps (k : Byte × Byte) (f : Entry → Entry) (s : State) :
    (updateEntry k f s).pending = s.pending ∧ (updateEntry k f s).loader = s.loader ∧ (updateEntry k f s).clock = s.clock ∧
    (updateEntry k f s).settings = s.settings ∧ (updateEntry k f s).selector = s.selector ∧ (updateEntry k f s).cues = s.cues ∧
    (updateEntry k f s).tx = s.tx ∧ (updateEntry k f s).rx = s.rx ∧ (updateEntry k f s).peers = s.peers ∧
    (updateEntry k f s).presence = s.presence ∧ (updateEntry k f s).names = s.names ∧ (updateEntry k f s).cells = s.cells ∧
    (updateEntry k f s).reference = s.reference ∧ (updateEntry k f s).port = s.port ∧ (updateEntry k f s).draws = s.draws := by
  simp [updateEntry]

/-- An entry that leaves writes the Claim Table alone. -/
@[simp] theorem removeEntry_keeps (k : Byte × Byte) (s : State) :
    (removeEntry k s).pending = s.pending ∧ (removeEntry k s).loader = s.loader ∧ (removeEntry k s).clock = s.clock ∧
    (removeEntry k s).settings = s.settings ∧ (removeEntry k s).selector = s.selector ∧ (removeEntry k s).cues = s.cues ∧
    (removeEntry k s).tx = s.tx ∧ (removeEntry k s).rx = s.rx ∧ (removeEntry k s).peers = s.peers ∧
    (removeEntry k s).presence = s.presence ∧ (removeEntry k s).names = s.names ∧ (removeEntry k s).cells = s.cells ∧
    (removeEntry k s).reference = s.reference ∧ (removeEntry k s).port = s.port ∧ (removeEntry k s).draws = s.draws := by
  simp [removeEntry]

/-- An admission writes the Claim Table alone. -/
@[simp] theorem admitEntry_keeps (e : Entry) (s : State) :
    (admitEntry e s).pending = s.pending ∧ (admitEntry e s).loader = s.loader ∧ (admitEntry e s).clock = s.clock ∧
    (admitEntry e s).settings = s.settings ∧ (admitEntry e s).selector = s.selector ∧ (admitEntry e s).cues = s.cues ∧ (admitEntry e s).tx = s.tx ∧
    (admitEntry e s).rx = s.rx ∧ (admitEntry e s).peers = s.peers ∧ (admitEntry e s).presence = s.presence ∧ (admitEntry e s).names = s.names ∧
    (admitEntry e s).cells = s.cells ∧ (admitEntry e s).reference = s.reference ∧ (admitEntry e s).port = s.port ∧
    (admitEntry e s).draws = s.draws := by
  simp [admitEntry]

/-- A move of an entry writes the Claim Table alone. -/
@[simp] theorem setEntryState_keeps (k : Byte × Byte) (st : EntryState) (s : State) :
    (setEntryState k st s).pending = s.pending ∧ (setEntryState k st s).loader = s.loader ∧
    (setEntryState k st s).clock = s.clock ∧ (setEntryState k st s).settings = s.settings ∧
    (setEntryState k st s).selector = s.selector ∧ (setEntryState k st s).cues = s.cues ∧ (setEntryState k st s).tx = s.tx ∧
    (setEntryState k st s).rx = s.rx ∧ (setEntryState k st s).peers = s.peers ∧ (setEntryState k st s).presence = s.presence ∧
    (setEntryState k st s).names = s.names ∧ (setEntryState k st s).cells = s.cells ∧
    (setEntryState k st s).reference = s.reference ∧ (setEntryState k st s).port = s.port ∧
    (setEntryState k st s).draws = s.draws := by
  simp [setEntryState]

/-- An on-air change does not touch the Claim Table, the cues, the peers, the names or the reference (R52). -/
@[simp] theorem onAirChange_keeps (old : Byte) (new : Option Entry) (s : State) :
    (onAirChange old new s).pending = s.pending ∧ (onAirChange old new s).loader = s.loader ∧
    (onAirChange old new s).clock = s.clock ∧ (onAirChange old new s).settings = s.settings ∧
    (onAirChange old new s).claims = s.claims ∧ (onAirChange old new s).cues = s.cues ∧
    (onAirChange old new s).peers = s.peers ∧ (onAirChange old new s).names = s.names ∧
    (onAirChange old new s).reference = s.reference := by
  simp only [onAirChange]
  (repeat' split) <;> simp

/-- Filling the slot writes the Claim Table besides what an on-air change writes. -/
@[simp] theorem fillSlot_keeps (old : Byte) (changed : Bool) (s : State) :
    (fillSlot old changed s).pending = s.pending ∧ (fillSlot old changed s).loader = s.loader ∧
    (fillSlot old changed s).clock = s.clock ∧ (fillSlot old changed s).settings = s.settings ∧
    (fillSlot old changed s).cues = s.cues ∧ (fillSlot old changed s).peers = s.peers ∧
    (fillSlot old changed s).names = s.names ∧ (fillSlot old changed s).reference = s.reference := by
  simp only [fillSlot]
  (repeat' split) <;> simp

/-- A selection run writes what an on-air change and two moves write. -/
@[simp] theorem select_keeps (s : State) :
    (select s).pending = s.pending ∧ (select s).loader = s.loader ∧ (select s).clock = s.clock ∧
    (select s).settings = s.settings ∧ (select s).cues = s.cues ∧ (select s).peers = s.peers ∧ (select s).names = s.names ∧
    (select s).reference = s.reference := by
  simp only [select]
  (repeat' split) <;> simp

/-- A change of a channel writes the Cue Front End alone. -/
@[simp] theorem updateChannel_keeps (c : Fin 4) (f : Channel → Channel) (s : State) :
    (updateChannel c f s).pending = s.pending ∧ (updateChannel c f s).loader = s.loader ∧
    (updateChannel c f s).clock = s.clock ∧ (updateChannel c f s).settings = s.settings ∧
    (updateChannel c f s).claims = s.claims ∧ (updateChannel c f s).selector = s.selector ∧ (updateChannel c f s).tx = s.tx ∧
    (updateChannel c f s).rx = s.rx ∧ (updateChannel c f s).peers = s.peers ∧ (updateChannel c f s).presence = s.presence ∧
    (updateChannel c f s).names = s.names ∧ (updateChannel c f s).cells = s.cells ∧
    (updateChannel c f s).reference = s.reference ∧ (updateChannel c f s).port = s.port ∧
    (updateChannel c f s).draws = s.draws := by
  simp [updateChannel]

/-- A notice to a cue source writes the Cue Front End alone (R74, R80). -/
@[simp] theorem cueNotice_keeps (source : Option (Fin 5)) (cause : EndCause) (s : State) :
    (cueNotice source cause s).pending = s.pending ∧ (cueNotice source cause s).loader = s.loader ∧
    (cueNotice source cause s).clock = s.clock ∧ (cueNotice source cause s).settings = s.settings ∧
    (cueNotice source cause s).claims = s.claims ∧ (cueNotice source cause s).selector = s.selector ∧
    (cueNotice source cause s).tx = s.tx ∧ (cueNotice source cause s).rx = s.rx ∧ (cueNotice source cause s).peers = s.peers ∧
    (cueNotice source cause s).presence = s.presence ∧ (cueNotice source cause s).names = s.names ∧
    (cueNotice source cause s).cells = s.cells ∧ (cueNotice source cause s).reference = s.reference ∧
    (cueNotice source cause s).port = s.port ∧ (cueNotice source cause s).draws = s.draws := by
  simp only [cueNotice]
  (repeat' split) <;> simp

/-- An ending leaves the waiting commands, the loader, the time bases, the settings, the names and the reference (R14). -/
@[simp] theorem endEntry_keeps (k : Byte × Byte) (cause : EndCause) (s : State) :
    (endEntry k cause s).pending = s.pending ∧ (endEntry k cause s).loader = s.loader ∧ (endEntry k cause s).clock = s.clock ∧
    (endEntry k cause s).settings = s.settings ∧ (endEntry k cause s).names = s.names ∧
    (endEntry k cause s).reference = s.reference := by
  simp only [endEntry]
  (repeat' split) <;> simp

/-- The endings of one origin leave what one ending leaves (R7, R130). -/
@[simp] theorem endWaitingOf_keeps (origin : Byte) (cause : EndCause) (fuel : Nat) (s : State) :
    (endWaitingOf origin cause fuel s).pending = s.pending ∧ (endWaitingOf origin cause fuel s).loader = s.loader ∧
    (endWaitingOf origin cause fuel s).clock = s.clock ∧ (endWaitingOf origin cause fuel s).settings = s.settings ∧
    (endWaitingOf origin cause fuel s).names = s.names ∧ (endWaitingOf origin cause fuel s).reference = s.reference := by
  induction fuel generalizing s with
  | zero => simp [endWaitingOf]
  | succ n ih => unfold endWaitingOf; split <;> simp [ih]

/-- The endings of one origin leave what one ending leaves (R7, R130). -/
@[simp] theorem endAllOf_keeps (origin : Byte) (cause : EndCause) (s : State) :
    (endAllOf origin cause s).pending = s.pending ∧ (endAllOf origin cause s).loader = s.loader ∧
    (endAllOf origin cause s).clock = s.clock ∧ (endAllOf origin cause s).settings = s.settings ∧
    (endAllOf origin cause s).names = s.names ∧ (endAllOf origin cause s).reference = s.reference := by
  simp only [endAllOf]
  (repeat' split) <;> simp

/-- The place search touches the Claim Table's entries alone (R16, R18). -/
theorem makeRoom_eq (takes : Entry → Bool) (s t : State) (h : makeRoom takes s = some t) :
    t = s ∨ ∃ k, t = removeEntry k s := by
  unfold makeRoom at h
  split at h
  · exact .inl (by simpa using h.symm)
  · split at h
    · exact .inr ⟨_, by simpa using h.symm⟩
    · split at h
      · split at h
        · exact .inr ⟨_, by simpa using h.symm⟩
        · cases h
      · cases h

/-- A local claim request touches neither the cues nor the peers (R20): its answer goes to the source that asked. -/
@[simp] theorem createLocal_keeps (c : Fin 5) (s : State) :
    ((createLocal c s).1).pending = s.pending ∧ ((createLocal c s).1).loader = s.loader ∧
    ((createLocal c s).1).clock = s.clock ∧ ((createLocal c s).1).settings = s.settings ∧ ((createLocal c s).1).cues = s.cues ∧
    ((createLocal c s).1).peers = s.peers ∧ ((createLocal c s).1).names = s.names ∧
    ((createLocal c s).1).reference = s.reference := by
  unfold createLocal
  split
  · simp
  · rename_i t h
    rcases makeRoom_eq _ _ _ h with rfl | ⟨k, rfl⟩ <;> simp

end Sys2Proof.Machine
end

