-- ==== Sys2Proof/Laws/Families.lean ====
section
/-! SUPPORT. What each operation of the families leaves as it was: one lemma per operation. -/

namespace Sys2Proof.Machine

/-- The blocks that `requestClaim` leaves as they were. -/
@[simp] theorem requestClaim_keeps (c : Fin 4) (s : State) :
    (requestClaim c s).pending = s.pending ∧ (requestClaim c s).loader = s.loader ∧ (requestClaim c s).clock = s.clock ∧
    (requestClaim c s).settings = s.settings ∧ (requestClaim c s).peers = s.peers ∧ (requestClaim c s).names = s.names ∧
    (requestClaim c s).reference = s.reference := by
  have h := createLocal_keeps c.castSucc s
  unfold requestClaim
  split <;> rename_i t _ heq <;> simp only [heq] at h <;> simp [h]

/-- The blocks that `validateRun` leaves as they were. -/
@[simp] theorem validateRun_keeps (c : Fin 4) (s : State) :
    (validateRun c s).pending = s.pending ∧ (validateRun c s).loader = s.loader ∧ (validateRun c s).clock = s.clock ∧
    (validateRun c s).settings = s.settings ∧ (validateRun c s).peers = s.peers ∧ (validateRun c s).names = s.names ∧
    (validateRun c s).reference = s.reference := by
  simp only [validateRun]
  (repeat' split) <;> simp

/-- The blocks that `endCue` leaves as they were. -/
@[simp] theorem endCue_keeps (c : Fin 4) (s : State) :
    (endCue c s).pending = s.pending ∧ (endCue c s).loader = s.loader ∧ (endCue c s).clock = s.clock ∧
    (endCue c s).settings = s.settings ∧ (endCue c s).names = s.names ∧ (endCue c s).reference = s.reference := by
  simp only [endCue]
  (repeat' split) <;> simp

/-- The blocks that `sampleEnabled` leaves as they were. -/
@[simp] theorem sampleEnabled_keeps (c : Fin 4) (v : Byte) (s : State) :
    (sampleEnabled c v s).pending = s.pending ∧ (sampleEnabled c v s).loader = s.loader ∧
    (sampleEnabled c v s).clock = s.clock ∧ (sampleEnabled c v s).settings = s.settings ∧
    (sampleEnabled c v s).names = s.names ∧ (sampleEnabled c v s).reference = s.reference := by
  simp only [sampleEnabled]
  (repeat' split) <;> simp

/-- The blocks that `sampleChannel` leaves as they were. -/
@[simp] theorem sampleChannel_keeps (c : Fin 4) (v : Byte) (s : State) :
    (sampleChannel c v s).pending = s.pending ∧ (sampleChannel c v s).loader = s.loader ∧
    (sampleChannel c v s).clock = s.clock ∧ (sampleChannel c v s).settings = s.settings ∧
    (sampleChannel c v s).names = s.names ∧ (sampleChannel c v s).reference = s.reference := by
  simp only [sampleChannel]
  (repeat' split) <;> simp

/-- A run of samples leaves what one sample leaves. -/
theorem samples_keep (values : Vector Byte 4) (l : List (Fin 4)) (s : State) :
    (l.foldl (fun s c => sampleChannel c values[c] s) s).pending = s.pending
    ∧ (l.foldl (fun s c => sampleChannel c values[c] s) s).loader = s.loader
    ∧ (l.foldl (fun s c => sampleChannel c values[c] s) s).clock = s.clock
    ∧ (l.foldl (fun s c => sampleChannel c values[c] s) s).settings = s.settings
    ∧ (l.foldl (fun s c => sampleChannel c values[c] s) s).names = s.names
    ∧ (l.foldl (fun s c => sampleChannel c values[c] s) s).reference = s.reference := by
  induction l generalizing s with
  | nil => simp
  | cons c l ih => simpa using ih (sampleChannel c values[c] s)

/-- The blocks that the four samples leave as they were. -/
@[simp] theorem sampleAll_keeps (v : Vector Byte 4) (o : Fin 24) (s : State) :
    (sampleAll v o s).pending = s.pending ∧ (sampleAll v o s).loader = s.loader ∧ (sampleAll v o s).clock = s.clock ∧
    (sampleAll v o s).settings = s.settings ∧ (sampleAll v o s).names = s.names ∧
    (sampleAll v o s).reference = s.reference := by
  simpa [sampleAll] using samples_keep v (channelOrder o) s

/-- The blocks that a taking of samples leaves as they were. -/
@[simp] theorem takeSamples_keeps (v : Vector Byte 4) (o : Fin 24) (s : State) :
    (takeSamples v o s).pending = s.pending ∧ (takeSamples v o s).loader = s.loader ∧
    (takeSamples v o s).settings = s.settings ∧ (takeSamples v o s).names = s.names ∧
    (takeSamples v o s).reference = s.reference := by
  simp only [takeSamples]
  (repeat' split) <;> simp

/-- The blocks that `manualStart` leaves as they were. -/
@[simp] theorem manualStart_keeps (s : State) :
    (manualStart s).pending = s.pending ∧ (manualStart s).loader = s.loader ∧ (manualStart s).clock = s.clock ∧
    (manualStart s).settings = s.settings ∧ (manualStart s).peers = s.peers ∧ (manualStart s).names = s.names ∧
    (manualStart s).reference = s.reference := by
  have h := createLocal_keeps 4 s
  unfold manualStart
  split
  · simp
  · split
    · simp
    · split <;> rename_i t _ heq <;> simp only [heq] at h <;> simp [h]

/-- The blocks that `manualStop` leaves as they were. -/
@[simp] theorem manualStop_keeps (s : State) :
    (manualStop s).pending = s.pending ∧ (manualStop s).loader = s.loader ∧ (manualStop s).clock = s.clock ∧
    (manualStop s).settings = s.settings ∧ (manualStop s).names = s.names ∧ (manualStop s).reference = s.reference := by
  simp only [manualStop]
  (repeat' split) <;> simp

/-- The blocks that `manualCue` leaves as they were. -/
@[simp] theorem manualCue_keeps (b : Byte) (s : State) :
    (manualCue b s).pending = s.pending ∧ (manualCue b s).loader = s.loader ∧ (manualCue b s).clock = s.clock ∧
    (manualCue b s).settings = s.settings ∧ (manualCue b s).names = s.names ∧ (manualCue b s).reference = s.reference := by
  simp only [manualCue]
  (repeat' split) <;> simp

/-- The blocks that `stageAction` leaves as they were. -/
@[simp] theorem stageAction_keeps (cfg : Settings) (action : OverrunAction) (stage : Nat) (e : Entry) (s : State) :
    (stageAction cfg action stage e s).pending = s.pending ∧ (stageAction cfg action stage e s).loader = s.loader ∧
    (stageAction cfg action stage e s).clock = s.clock ∧ (stageAction cfg action stage e s).settings = s.settings ∧
    (stageAction cfg action stage e s).names = s.names ∧ (stageAction cfg action stage e s).reference = s.reference := by
  simp only [stageAction]
  (repeat' split) <;> simp

/-- The blocks that `fireStage` leaves as they were. -/
@[simp] theorem fireStage_keeps (stage : Nat) (st : Stage) (e : Entry) (s : State) :
    (fireStage stage st e s).pending = s.pending ∧ (fireStage stage st e s).loader = s.loader ∧
    (fireStage stage st e s).clock = s.clock ∧ (fireStage stage st e s).settings = s.settings ∧
    (fireStage stage st e s).names = s.names ∧ (fireStage stage st e s).reference = s.reference := by
  simp only [fireStage]
  (repeat' split) <;> simp

/-- The blocks that `supervise` leaves as they were. -/
@[simp] theorem supervise_keeps (fuel : Nat) (k : Byte × Byte) (s : State) :
    (supervise fuel k s).pending = s.pending ∧ (supervise fuel k s).loader = s.loader ∧ (supervise fuel k s).clock = s.clock ∧
    (supervise fuel k s).settings = s.settings ∧ (supervise fuel k s).names = s.names ∧
    (supervise fuel k s).reference = s.reference := by
  induction fuel generalizing s with
  | zero => simp [supervise]
  | succ n ih => unfold supervise; (repeat' split) <;> simp [ih]

/-- A supervision pass leaves what the supervision of one entry leaves. -/
theorem pass_keeps (keys : List (Byte × Byte)) (s : State) :
    (keys.foldl (fun s k => supervise 4 k s) s).pending = s.pending
    ∧ (keys.foldl (fun s k => supervise 4 k s) s).loader = s.loader
    ∧ (keys.foldl (fun s k => supervise 4 k s) s).clock = s.clock
    ∧ (keys.foldl (fun s k => supervise 4 k s) s).settings = s.settings
    ∧ (keys.foldl (fun s k => supervise 4 k s) s).names = s.names
    ∧ (keys.foldl (fun s k => supervise 4 k s) s).reference = s.reference := by
  induction keys generalizing s with
  | nil => simp
  | cons k keys ih => simp [ih]

/-- The blocks that the ageing of the entries leaves as they were. -/
@[simp] theorem ageEntries_keeps (s : State) :
    (ageEntries s).pending = s.pending ∧ (ageEntries s).loader = s.loader ∧ (ageEntries s).clock = s.clock ∧
    (ageEntries s).settings = s.settings ∧ (ageEntries s).names = s.names ∧ (ageEntries s).reference = s.reference := by
  simp [ageEntries, pass_keeps]

/-- The blocks that `countSecond` leaves as they were. -/
@[simp] theorem countSecond_keeps (s : State) :
    (countSecond s).pending = s.pending ∧ (countSecond s).loader = s.loader ∧ (countSecond s).clock = s.clock ∧
    (countSecond s).settings = s.settings ∧ (countSecond s).claims = s.claims ∧ (countSecond s).selector = s.selector ∧
    (countSecond s).cues = s.cues ∧ (countSecond s).tx = s.tx ∧ (countSecond s).rx = s.rx ∧ (countSecond s).peers = s.peers ∧
    (countSecond s).cells = s.cells ∧ (countSecond s).port = s.port ∧ (countSecond s).draws = s.draws := by
  simp only [countSecond]
  (repeat' split) <;> simp

/-- The blocks that an age step leaves as they were. -/
@[simp] theorem ageStep_keeps (s : State) :
    (ageStep s).pending = s.pending ∧ (ageStep s).loader = s.loader ∧ (ageStep s).settings = s.settings := by
  simp only [ageStep]
  (repeat' split) <;> simp

/-- The blocks that `expireClaim` leaves as they were. -/
@[simp] theorem expireClaim_keeps (k : Byte × Byte) (s : State) :
    (expireClaim k s).pending = s.pending ∧ (expireClaim k s).loader = s.loader ∧ (expireClaim k s).clock = s.clock ∧
    (expireClaim k s).settings = s.settings ∧ (expireClaim k s).names = s.names ∧
    (expireClaim k s).reference = s.reference := by
  simp only [expireClaim]
  (repeat' split) <;> simp

/-- The blocks that `freeTail` leaves as they were. -/
@[simp] theorem freeTail_keeps (k : Byte × Byte) (s : State) :
    (freeTail k s).pending = s.pending ∧ (freeTail k s).loader = s.loader ∧ (freeTail k s).clock = s.clock ∧
    (freeTail k s).settings = s.settings ∧ (freeTail k s).cues = s.cues ∧ (freeTail k s).peers = s.peers ∧
    (freeTail k s).names = s.names ∧ (freeTail k s).reference = s.reference := by
  simp only [freeTail]
  (repeat' split) <;> simp

/-- The blocks that `refreshLocal` leaves as they were. -/
@[simp] theorem refreshLocal_keeps (n : Byte) (s : State) :
    (refreshLocal n s).pending = s.pending ∧ (refreshLocal n s).loader = s.loader ∧ (refreshLocal n s).clock = s.clock ∧
    (refreshLocal n s).settings = s.settings ∧ (refreshLocal n s).selector = s.selector ∧ (refreshLocal n s).cues = s.cues ∧
    (refreshLocal n s).peers = s.peers ∧ (refreshLocal n s).presence = s.presence ∧ (refreshLocal n s).names = s.names ∧
    (refreshLocal n s).cells = s.cells ∧ (refreshLocal n s).reference = s.reference := by
  simp only [refreshLocal]
  (repeat' split) <;> simp

/-- The blocks that `repeatRelease` leaves as they were. -/
@[simp] theorem repeatRelease_keeps (n : Byte) (s : State) :
    (repeatRelease n s).pending = s.pending ∧ (repeatRelease n s).loader = s.loader ∧ (repeatRelease n s).clock = s.clock ∧
    (repeatRelease n s).settings = s.settings ∧ (repeatRelease n s).selector = s.selector ∧ (repeatRelease n s).cues = s.cues ∧
    (repeatRelease n s).peers = s.peers ∧ (repeatRelease n s).presence = s.presence ∧ (repeatRelease n s).names = s.names ∧
    (repeatRelease n s).cells = s.cells ∧ (repeatRelease n s).reference = s.reference := by
  simp only [repeatRelease]
  (repeat' split) <;> simp

/-- The blocks that `expireGuard` leaves as they were. -/
@[simp] theorem expireGuard_keeps (s : State) :
    (expireGuard s).pending = s.pending ∧ (expireGuard s).loader = s.loader ∧ (expireGuard s).clock = s.clock ∧
    (expireGuard s).settings = s.settings ∧ (expireGuard s).cues = s.cues ∧ (expireGuard s).peers = s.peers ∧
    (expireGuard s).names = s.names ∧ (expireGuard s).reference = s.reference := by
  simp only [expireGuard]
  (repeat' split) <;> simp

/-- The blocks that `restartOrigin` leaves as they were. -/
@[simp] theorem restartOrigin_keeps (o : Byte) (s : State) :
    (restartOrigin o s).pending = s.pending ∧ (restartOrigin o s).loader = s.loader ∧ (restartOrigin o s).clock = s.clock ∧
    (restartOrigin o s).settings = s.settings ∧ (restartOrigin o s).names = s.names ∧
    (restartOrigin o s).reference = s.reference := by
  simp only [restartOrigin]
  (repeat' split) <;> simp

/-- The blocks that `compareMark` leaves as they were. -/
@[simp] theorem compareMark_keeps (o m : Byte) (s : State) :
    (compareMark o m s).pending = s.pending ∧ (compareMark o m s).loader = s.loader ∧ (compareMark o m s).clock = s.clock ∧
    (compareMark o m s).settings = s.settings ∧ (compareMark o m s).names = s.names ∧
    (compareMark o m s).reference = s.reference := by
  simp only [compareMark]
  (repeat' split) <;> simp

/-- The blocks that `hearPeer` leaves as they were. -/
@[simp] theorem hearPeer_keeps (o m k : Byte) (s : State) :
    (hearPeer o m k s).pending = s.pending ∧ (hearPeer o m k s).loader = s.loader ∧ (hearPeer o m k s).clock = s.clock ∧
    (hearPeer o m k s).settings = s.settings ∧ (hearPeer o m k s).names = s.names ∧
    (hearPeer o m k s).reference = s.reference := by
  simp only [hearPeer]
  (repeat' split) <;> simp

/-- The blocks that `takePresence` leaves as they were. -/
@[simp] theorem takePresence_keeps (o : Byte) (l : QuietLevel) (f : Half) (s : State) :
    (takePresence o l f s).pending = s.pending ∧ (takePresence o l f s).loader = s.loader ∧
    (takePresence o l f s).clock = s.clock ∧ (takePresence o l f s).settings = s.settings ∧
    (takePresence o l f s).claims = s.claims ∧ (takePresence o l f s).selector = s.selector ∧
    (takePresence o l f s).cues = s.cues ∧ (takePresence o l f s).tx = s.tx ∧ (takePresence o l f s).rx = s.rx ∧
    (takePresence o l f s).presence = s.presence ∧ (takePresence o l f s).names = s.names ∧
    (takePresence o l f s).cells = s.cells ∧ (takePresence o l f s).reference = s.reference ∧
    (takePresence o l f s).draws = s.draws := by
  simp only [takePresence]
  (repeat' split) <;> simp

/-- The blocks that `losePeer` leaves as they were. -/
@[simp] theorem losePeer_keeps (p : Byte) (s : State) :
    (losePeer p s).pending = s.pending ∧ (losePeer p s).loader = s.loader ∧ (losePeer p s).clock = s.clock ∧
    (losePeer p s).settings = s.settings ∧ (losePeer p s).names = s.names ∧ (losePeer p s).reference = s.reference := by
  simp [losePeer]

/-- The blocks that `testDeadline` leaves as they were. -/
@[simp] theorem testDeadline_keeps (p : Byte) (s : State) :
    (testDeadline p s).pending = s.pending ∧ (testDeadline p s).loader = s.loader ∧ (testDeadline p s).clock = s.clock ∧
    (testDeadline p s).settings = s.settings ∧ (testDeadline p s).names = s.names ∧
    (testDeadline p s).reference = s.reference := by
  simp only [testDeadline]
  (repeat' split) <;> simp

/-- The blocks that `periodicPresence` leaves as they were. -/
@[simp] theorem periodicPresence_keeps (s : State) :
    (periodicPresence s).pending = s.pending ∧ (periodicPresence s).loader = s.loader ∧ (periodicPresence s).clock = s.clock ∧
    (periodicPresence s).settings = s.settings ∧ (periodicPresence s).claims = s.claims ∧
    (periodicPresence s).selector = s.selector ∧ (periodicPresence s).cues = s.cues ∧ (periodicPresence s).peers = s.peers ∧
    (periodicPresence s).names = s.names ∧ (periodicPresence s).cells = s.cells ∧
    (periodicPresence s).reference = s.reference := by
  simp only [periodicPresence]
  (repeat' split) <;> simp

/-- The blocks that `downshiftTest` leaves as they were. -/
@[simp] theorem downshiftTest_keeps (s : State) :
    (downshiftTest s).pending = s.pending ∧ (downshiftTest s).loader = s.loader ∧ (downshiftTest s).clock = s.clock ∧
    (downshiftTest s).settings = s.settings ∧ (downshiftTest s).claims = s.claims ∧ (downshiftTest s).selector = s.selector ∧
    (downshiftTest s).cues = s.cues ∧ (downshiftTest s).peers = s.peers ∧ (downshiftTest s).names = s.names ∧
    (downshiftTest s).cells = s.cells ∧ (downshiftTest s).reference = s.reference := by
  simp only [downshiftTest]
  (repeat' split) <;> simp

/-- The blocks that `repeatName` leaves as they were. -/
@[simp] theorem repeatName_keeps (s : State) :
    (repeatName s).pending = s.pending ∧ (repeatName s).loader = s.loader ∧ (repeatName s).clock = s.clock ∧
    (repeatName s).settings = s.settings ∧ (repeatName s).claims = s.claims ∧ (repeatName s).selector = s.selector ∧
    (repeatName s).cues = s.cues ∧ (repeatName s).peers = s.peers ∧ (repeatName s).presence = s.presence ∧
    (repeatName s).cells = s.cells ∧ (repeatName s).reference = s.reference := by
  simp only [repeatName]
  (repeat' split) <;> simp

/-- The blocks that `refreshEntry` leaves as they were. -/
@[simp] theorem refreshEntry_keeps (e : Entry) (c : ClaimClass) (a l : Byte) (k : Nat) (s : State) :
    (refreshEntry e c a l k s).pending = s.pending ∧ (refreshEntry e c a l k s).loader = s.loader ∧
    (refreshEntry e c a l k s).clock = s.clock ∧ (refreshEntry e c a l k s).settings = s.settings ∧
    (refreshEntry e c a l k s).selector = s.selector ∧ (refreshEntry e c a l k s).cues = s.cues ∧
    (refreshEntry e c a l k s).tx = s.tx ∧ (refreshEntry e c a l k s).rx = s.rx ∧ (refreshEntry e c a l k s).peers = s.peers ∧
    (refreshEntry e c a l k s).presence = s.presence ∧ (refreshEntry e c a l k s).names = s.names ∧
    (refreshEntry e c a l k s).cells = s.cells ∧ (refreshEntry e c a l k s).reference = s.reference ∧
    (refreshEntry e c a l k s).draws = s.draws := by
  simp only [refreshEntry]
  (repeat' split) <;> simp

/-- The blocks that `countStale` leaves as they were. -/
@[simp] theorem countStale_keeps (s : State) :
    (countStale s).pending = s.pending ∧ (countStale s).loader = s.loader ∧ (countStale s).clock = s.clock ∧
    (countStale s).settings = s.settings ∧ (countStale s).selector = s.selector ∧ (countStale s).cues = s.cues ∧
    (countStale s).tx = s.tx ∧ (countStale s).rx = s.rx ∧ (countStale s).peers = s.peers ∧
    (countStale s).presence = s.presence ∧ (countStale s).names = s.names ∧ (countStale s).cells = s.cells ∧
    (countStale s).reference = s.reference ∧ (countStale s).port = s.port ∧ (countStale s).draws = s.draws := by
  simp [countStale]

/-- The blocks that `countOutside` leaves as they were. -/
@[simp] theorem countOutside_keeps (s : State) :
    (countOutside s).pending = s.pending ∧ (countOutside s).loader = s.loader ∧ (countOutside s).clock = s.clock ∧
    (countOutside s).settings = s.settings ∧ (countOutside s).selector = s.selector ∧ (countOutside s).cues = s.cues ∧
    (countOutside s).tx = s.tx ∧ (countOutside s).rx = s.rx ∧ (countOutside s).peers = s.peers ∧
    (countOutside s).presence = s.presence ∧ (countOutside s).names = s.names ∧ (countOutside s).cells = s.cells ∧
    (countOutside s).reference = s.reference ∧ (countOutside s).port = s.port ∧ (countOutside s).draws = s.draws := by
  simp [countOutside]

/-- The blocks that `considerClaim` leaves as they were. -/
@[simp] theorem considerClaim_keeps (o n : Byte) (c : ClaimClass) (a l : Byte) (k : Nat) (s : State) :
    (considerClaim o n c a l k s).pending = s.pending ∧ (considerClaim o n c a l k s).loader = s.loader ∧
    (considerClaim o n c a l k s).clock = s.clock ∧ (considerClaim o n c a l k s).settings = s.settings ∧
    (considerClaim o n c a l k s).cues = s.cues ∧ (considerClaim o n c a l k s).peers = s.peers ∧
    (considerClaim o n c a l k s).names = s.names ∧ (considerClaim o n c a l k s).reference = s.reference := by
  simp only [considerClaim]
  split
  · simp
  · split
    · simp
    · rename_i t h
      rcases makeRoom_eq _ _ _ h with rfl | ⟨k, rfl⟩ <;> simp

/-- The blocks that `takeClaim` leaves as they were. -/
@[simp] theorem takeClaim_keeps (o n : Byte) (c : ClaimClass) (a l : Byte) (k : Nat) (s : State) :
    (takeClaim o n c a l k s).pending = s.pending ∧ (takeClaim o n c a l k s).loader = s.loader ∧
    (takeClaim o n c a l k s).clock = s.clock ∧ (takeClaim o n c a l k s).settings = s.settings ∧
    (takeClaim o n c a l k s).cues = s.cues ∧ (takeClaim o n c a l k s).peers = s.peers ∧
    (takeClaim o n c a l k s).names = s.names ∧ (takeClaim o n c a l k s).reference = s.reference := by
  simp only [takeClaim]
  (repeat' split) <;> simp

/-- The blocks that `claimPayload` leaves as they were. -/
@[simp] theorem claimPayload_keeps (o : Byte) (p : List Byte) (s : State) :
    (claimPayload o p s).pending = s.pending ∧ (claimPayload o p s).loader = s.loader ∧ (claimPayload o p s).clock = s.clock ∧
    (claimPayload o p s).settings = s.settings ∧ (claimPayload o p s).cues = s.cues ∧ (claimPayload o p s).peers = s.peers ∧
    (claimPayload o p s).names = s.names ∧ (claimPayload o p s).reference = s.reference := by
  simp only [claimPayload]
  (repeat' split) <;> simp

/-- The blocks that `takeRelease` leaves as they were. -/
@[simp] theorem takeRelease_keeps (o n : Byte) (s : State) :
    (takeRelease o n s).pending = s.pending ∧ (takeRelease o n s).loader = s.loader ∧ (takeRelease o n s).clock = s.clock ∧
    (takeRelease o n s).settings = s.settings ∧ (takeRelease o n s).names = s.names ∧
    (takeRelease o n s).reference = s.reference := by
  simp only [takeRelease]
  (repeat' split) <;> simp

/-- The blocks that `releasePayload` leaves as they were. -/
@[simp] theorem releasePayload_keeps (o : Byte) (p : List Byte) (s : State) :
    (releasePayload o p s).pending = s.pending ∧ (releasePayload o p s).loader = s.loader ∧
    (releasePayload o p s).clock = s.clock ∧ (releasePayload o p s).settings = s.settings ∧
    (releasePayload o p s).names = s.names ∧ (releasePayload o p s).reference = s.reference := by
  simp only [releasePayload]
  (repeat' split) <;> simp

/-- The blocks that `takeLapse` leaves as they were. -/
@[simp] theorem takeLapse_keeps (x o n : Byte) (s : State) :
    (takeLapse x o n s).pending = s.pending ∧ (takeLapse x o n s).loader = s.loader ∧ (takeLapse x o n s).clock = s.clock ∧
    (takeLapse x o n s).settings = s.settings ∧ (takeLapse x o n s).names = s.names ∧
    (takeLapse x o n s).reference = s.reference := by
  simp only [takeLapse]
  (repeat' split) <;> simp

/-- The blocks that `lapsePayload` leaves as they were. -/
@[simp] theorem lapsePayload_keeps (x : Byte) (p : List Byte) (s : State) :
    (lapsePayload x p s).pending = s.pending ∧ (lapsePayload x p s).loader = s.loader ∧ (lapsePayload x p s).clock = s.clock ∧
    (lapsePayload x p s).settings = s.settings ∧ (lapsePayload x p s).names = s.names ∧
    (lapsePayload x p s).reference = s.reference := by
  simp only [lapsePayload]
  (repeat' split) <;> simp

/-- The blocks that `presencePayload` leaves as they were. -/
@[simp] theorem presencePayload_keeps (o : Byte) (p : List Byte) (s : State) :
    (presencePayload o p s).pending = s.pending ∧ (presencePayload o p s).loader = s.loader ∧
    (presencePayload o p s).clock = s.clock ∧ (presencePayload o p s).settings = s.settings ∧
    (presencePayload o p s).claims = s.claims ∧ (presencePayload o p s).selector = s.selector ∧
    (presencePayload o p s).cues = s.cues ∧ (presencePayload o p s).tx = s.tx ∧ (presencePayload o p s).presence = s.presence ∧
    (presencePayload o p s).names = s.names ∧ (presencePayload o p s).cells = s.cells ∧
    (presencePayload o p s).reference = s.reference ∧ (presencePayload o p s).draws = s.draws := by
  simp only [presencePayload]
  (repeat' split) <;> simp

/-- The blocks that `namePayload` leaves as they were. -/
@[simp] theorem namePayload_keeps (o : Byte) (p : List Byte) (s : State) :
    (namePayload o p s).pending = s.pending ∧ (namePayload o p s).loader = s.loader ∧ (namePayload o p s).clock = s.clock ∧
    (namePayload o p s).settings = s.settings ∧ (namePayload o p s).claims = s.claims ∧
    (namePayload o p s).selector = s.selector ∧ (namePayload o p s).cues = s.cues ∧ (namePayload o p s).tx = s.tx ∧
    (namePayload o p s).rx = s.rx ∧ (namePayload o p s).peers = s.peers ∧ (namePayload o p s).presence = s.presence ∧
    (namePayload o p s).cells = s.cells ∧ (namePayload o p s).reference = s.reference ∧ (namePayload o p s).port = s.port ∧
    (namePayload o p s).draws = s.draws := by
  simp only [namePayload]
  (repeat' split) <;> simp

/-- The blocks that `dispatchFrame` leaves as they were. -/
@[simp] theorem dispatchFrame_keeps (k o m : Byte) (p : List Byte) (s : State) :
    (dispatchFrame k o m p s).pending = s.pending ∧ (dispatchFrame k o m p s).loader = s.loader ∧
    (dispatchFrame k o m p s).clock = s.clock ∧ (dispatchFrame k o m p s).settings = s.settings ∧
    (dispatchFrame k o m p s).reference = s.reference := by
  simp only [dispatchFrame]
  (repeat' split) <;> simp

/-- The blocks that `hearDuplicate` leaves as they were. -/
@[simp] theorem hearDuplicate_keeps (k m : Byte) (s : State) :
    (hearDuplicate k m s).pending = s.pending ∧ (hearDuplicate k m s).loader = s.loader ∧
    (hearDuplicate k m s).clock = s.clock ∧ (hearDuplicate k m s).settings = s.settings ∧
    (hearDuplicate k m s).claims = s.claims ∧ (hearDuplicate k m s).selector = s.selector ∧
    (hearDuplicate k m s).cues = s.cues ∧ (hearDuplicate k m s).tx = s.tx ∧ (hearDuplicate k m s).peers = s.peers ∧
    (hearDuplicate k m s).presence = s.presence ∧ (hearDuplicate k m s).names = s.names ∧
    (hearDuplicate k m s).cells = s.cells ∧ (hearDuplicate k m s).reference = s.reference ∧
    (hearDuplicate k m s).draws = s.draws := by
  simp only [hearDuplicate]
  (repeat' split) <;> simp

/-- The blocks that `rxWaitIdle` leaves as they were. -/
@[simp] theorem rxWaitIdle_keeps (s : State) :
    (rxWaitIdle s).pending = s.pending ∧ (rxWaitIdle s).loader = s.loader ∧ (rxWaitIdle s).clock = s.clock ∧
    (rxWaitIdle s).settings = s.settings ∧ (rxWaitIdle s).claims = s.claims ∧ (rxWaitIdle s).selector = s.selector ∧
    (rxWaitIdle s).cues = s.cues ∧ (rxWaitIdle s).tx = s.tx ∧ (rxWaitIdle s).peers = s.peers ∧
    (rxWaitIdle s).presence = s.presence ∧ (rxWaitIdle s).names = s.names ∧ (rxWaitIdle s).cells = s.cells ∧
    (rxWaitIdle s).reference = s.reference ∧ (rxWaitIdle s).port = s.port ∧ (rxWaitIdle s).draws = s.draws := by
  simp [rxWaitIdle]

/-- The blocks that `completeAssembly` leaves as they were. -/
@[simp] theorem completeAssembly_keeps (l : Byte) (b : List Byte) (f : Bool) (s : State) :
    (completeAssembly l b f s).pending = s.pending ∧ (completeAssembly l b f s).loader = s.loader ∧
    (completeAssembly l b f s).clock = s.clock ∧ (completeAssembly l b f s).settings = s.settings ∧
    (completeAssembly l b f s).reference = s.reference := by
  simp only [completeAssembly]
  (repeat' split) <;> simp

/-- The blocks that `assemble` leaves as they were. -/
@[simp] theorem assemble_keeps (c : Byte) (f own : Bool) (s : State) :
    (assemble c f own s).pending = s.pending ∧ (assemble c f own s).loader = s.loader ∧ (assemble c f own s).clock = s.clock ∧
    (assemble c f own s).settings = s.settings ∧ (assemble c f own s).reference = s.reference := by
  simp only [assemble]
  (repeat' split) <;> simp

/-- The blocks that `receiveRunning` leaves as they were. -/
@[simp] theorem receiveRunning_keeps (c : Byte) (f own : Bool) (s : State) :
    (receiveRunning c f own s).pending = s.pending ∧ (receiveRunning c f own s).loader = s.loader ∧
    (receiveRunning c f own s).clock = s.clock ∧ (receiveRunning c f own s).settings = s.settings ∧
    (receiveRunning c f own s).reference = s.reference := by
  simp only [receiveRunning]
  (repeat' split) <;> simp

/-- The blocks that `setLine` leaves as they were. -/
@[simp] theorem setLine_keeps (l : LineState) (s : State) :
    (setLine l s).pending = s.pending ∧ (setLine l s).loader = s.loader ∧ (setLine l s).clock = s.clock ∧
    (setLine l s).settings = s.settings ∧ (setLine l s).claims = s.claims ∧ (setLine l s).selector = s.selector ∧
    (setLine l s).cues = s.cues ∧ (setLine l s).tx = s.tx ∧ (setLine l s).peers = s.peers ∧
    (setLine l s).presence = s.presence ∧ (setLine l s).names = s.names ∧ (setLine l s).cells = s.cells ∧
    (setLine l s).reference = s.reference ∧ (setLine l s).port = s.port ∧ (setLine l s).draws = s.draws := by
  simp only [setLine]
  (repeat' split) <;> simp

/-- The blocks that `receiveCharacter` leaves as they were. -/
@[simp] theorem receiveCharacter_keeps (c : Byte) (f own : Bool) (s : State) :
    (receiveCharacter c f own s).pending = s.pending ∧ (receiveCharacter c f own s).loader = s.loader ∧
    (receiveCharacter c f own s).clock = s.clock ∧ (receiveCharacter c f own s).settings = s.settings ∧
    (receiveCharacter c f own s).reference = s.reference := by
  simp only [receiveCharacter]
  (repeat' split) <;> simp

/-- The blocks that `abandonAssembly` leaves as they were. -/
@[simp] theorem abandonAssembly_keeps (s : State) :
    (abandonAssembly s).pending = s.pending ∧ (abandonAssembly s).loader = s.loader ∧ (abandonAssembly s).clock = s.clock ∧
    (abandonAssembly s).settings = s.settings ∧ (abandonAssembly s).claims = s.claims ∧
    (abandonAssembly s).selector = s.selector ∧ (abandonAssembly s).cues = s.cues ∧ (abandonAssembly s).tx = s.tx ∧
    (abandonAssembly s).peers = s.peers ∧ (abandonAssembly s).presence = s.presence ∧ (abandonAssembly s).names = s.names ∧
    (abandonAssembly s).cells = s.cells ∧ (abandonAssembly s).reference = s.reference ∧ (abandonAssembly s).port = s.port ∧
    (abandonAssembly s).draws = s.draws := by
  simp only [abandonAssembly]
  (repeat' split) <;> simp

/-- The blocks that `becomeIdle` leaves as they were. -/
@[simp] theorem becomeIdle_keeps (s : State) :
    (becomeIdle s).pending = s.pending ∧ (becomeIdle s).loader = s.loader ∧ (becomeIdle s).clock = s.clock ∧
    (becomeIdle s).settings = s.settings ∧ (becomeIdle s).claims = s.claims ∧ (becomeIdle s).selector = s.selector ∧
    (becomeIdle s).cues = s.cues ∧ (becomeIdle s).tx = s.tx ∧ (becomeIdle s).peers = s.peers ∧
    (becomeIdle s).presence = s.presence ∧ (becomeIdle s).names = s.names ∧ (becomeIdle s).cells = s.cells ∧
    (becomeIdle s).reference = s.reference ∧ (becomeIdle s).port = s.port ∧ (becomeIdle s).draws = s.draws := by
  simp only [becomeIdle]
  (repeat' split) <;> simp

/-- The blocks that `countSlot` leaves as they were. -/
@[simp] theorem countSlot_keeps (s : State) :
    (countSlot s).pending = s.pending ∧ (countSlot s).loader = s.loader ∧ (countSlot s).clock = s.clock ∧
    (countSlot s).settings = s.settings ∧ (countSlot s).claims = s.claims ∧ (countSlot s).selector = s.selector ∧
    (countSlot s).cues = s.cues ∧ (countSlot s).rx = s.rx ∧ (countSlot s).peers = s.peers ∧
    (countSlot s).presence = s.presence ∧ (countSlot s).names = s.names ∧ (countSlot s).cells = s.cells ∧
    (countSlot s).reference = s.reference ∧ (countSlot s).port = s.port ∧ (countSlot s).draws = s.draws := by
  simp only [countSlot]
  (repeat' split) <;> simp

/-- The blocks that `beginAttempt` leaves as they were. -/
@[simp] theorem beginAttempt_keeps (s : State) :
    (beginAttempt s).pending = s.pending ∧ (beginAttempt s).loader = s.loader ∧ (beginAttempt s).clock = s.clock ∧
    (beginAttempt s).settings = s.settings ∧ (beginAttempt s).claims = s.claims ∧ (beginAttempt s).selector = s.selector ∧
    (beginAttempt s).cues = s.cues ∧ (beginAttempt s).peers = s.peers ∧ (beginAttempt s).presence = s.presence ∧
    (beginAttempt s).names = s.names ∧ (beginAttempt s).cells = s.cells ∧ (beginAttempt s).reference = s.reference ∧
    (beginAttempt s).port = s.port ∧ (beginAttempt s).draws = s.draws := by
  simp only [beginAttempt]
  (repeat' split) <;> simp

/-- The blocks that `endAttempt` leaves as they were. -/
@[simp] theorem endAttempt_keeps (s : State) :
    (endAttempt s).pending = s.pending ∧ (endAttempt s).loader = s.loader ∧ (endAttempt s).clock = s.clock ∧
    (endAttempt s).settings = s.settings ∧ (endAttempt s).claims = s.claims ∧ (endAttempt s).selector = s.selector ∧
    (endAttempt s).cues = s.cues ∧ (endAttempt s).rx = s.rx ∧ (endAttempt s).peers = s.peers ∧
    (endAttempt s).presence = s.presence ∧ (endAttempt s).names = s.names ∧ (endAttempt s).cells = s.cells ∧
    (endAttempt s).reference = s.reference ∧ (endAttempt s).port = s.port ∧ (endAttempt s).draws = s.draws := by
  simp [endAttempt]

/-- The blocks that `leaveHead` leaves as they were. -/
@[simp] theorem leaveHead_keeps (s : State) :
    (leaveHead s).pending = s.pending ∧ (leaveHead s).loader = s.loader ∧ (leaveHead s).clock = s.clock ∧
    (leaveHead s).settings = s.settings ∧ (leaveHead s).claims = s.claims ∧ (leaveHead s).selector = s.selector ∧
    (leaveHead s).cues = s.cues ∧ (leaveHead s).peers = s.peers ∧ (leaveHead s).presence = s.presence ∧
    (leaveHead s).names = s.names ∧ (leaveHead s).cells = s.cells ∧ (leaveHead s).reference = s.reference := by
  simp only [leaveHead]
  (repeat' split) <;> simp

/-- The blocks that `readBackEqual` leaves as they were. -/
@[simp] theorem readBackEqual_keeps (a : Attempt) (s : State) :
    (readBackEqual a s).pending = s.pending ∧ (readBackEqual a s).loader = s.loader ∧ (readBackEqual a s).clock = s.clock ∧
    (readBackEqual a s).settings = s.settings ∧ (readBackEqual a s).reference = s.reference := by
  simp only [readBackEqual]
  (repeat' split) <;> simp

/-- The blocks that `raiseAttempt` leaves as they were. -/
@[simp] theorem raiseAttempt_keeps (s : State) :
    (raiseAttempt s).pending = s.pending ∧ (raiseAttempt s).loader = s.loader ∧ (raiseAttempt s).clock = s.clock ∧
    (raiseAttempt s).settings = s.settings ∧ (raiseAttempt s).claims = s.claims ∧ (raiseAttempt s).selector = s.selector ∧
    (raiseAttempt s).cues = s.cues ∧ (raiseAttempt s).rx = s.rx ∧ (raiseAttempt s).peers = s.peers ∧
    (raiseAttempt s).presence = s.presence ∧ (raiseAttempt s).names = s.names ∧ (raiseAttempt s).cells = s.cells ∧
    (raiseAttempt s).reference = s.reference ∧ (raiseAttempt s).port = s.port ∧ (raiseAttempt s).draws = s.draws := by
  simp only [raiseAttempt]
  (repeat' split) <;> simp

/-- The blocks that `afterCollision` leaves as they were. -/
@[simp] theorem afterCollision_keeps (s : State) :
    (afterCollision s).pending = s.pending ∧ (afterCollision s).loader = s.loader ∧ (afterCollision s).clock = s.clock ∧
    (afterCollision s).settings = s.settings ∧ (afterCollision s).claims = s.claims ∧
    (afterCollision s).selector = s.selector ∧ (afterCollision s).cues = s.cues ∧ (afterCollision s).peers = s.peers ∧
    (afterCollision s).presence = s.presence ∧ (afterCollision s).names = s.names ∧ (afterCollision s).cells = s.cells ∧
    (afterCollision s).reference = s.reference := by
  simp only [afterCollision]
  (repeat' split) <;> simp

/-- The blocks that `collide` leaves as they were. -/
@[simp] theorem collide_keeps (a : Attempt) (c : Byte) (f : Bool) (s : State) :
    (collide a c f s).pending = s.pending ∧ (collide a c f s).loader = s.loader ∧ (collide a c f s).clock = s.clock ∧
    (collide a c f s).settings = s.settings ∧ (collide a c f s).reference = s.reference := by
  simp only [collide]
  (repeat' split) <;> simp

/-- The blocks that `ownCharacterReturns` leaves as they were. -/
@[simp] theorem ownCharacterReturns_keeps (v : Option (Byte × Bool)) (s : State) :
    (ownCharacterReturns v s).pending = s.pending ∧ (ownCharacterReturns v s).loader = s.loader ∧
    (ownCharacterReturns v s).clock = s.clock ∧ (ownCharacterReturns v s).settings = s.settings ∧
    (ownCharacterReturns v s).reference = s.reference := by
  simp only [ownCharacterReturns]
  (repeat' split) <;> simp

/-- The blocks that `applyName` leaves as they were. -/
@[simp] theorem applyName_keeps (s : State) :
    (applyName s).pending = s.pending ∧ (applyName s).loader = s.loader ∧ (applyName s).clock = s.clock ∧
    (applyName s).settings = s.settings ∧ (applyName s).claims = s.claims ∧ (applyName s).selector = s.selector ∧
    (applyName s).cues = s.cues ∧ (applyName s).peers = s.peers ∧ (applyName s).cells = s.cells ∧
    (applyName s).reference = s.reference := by
  simp only [applyName]
  (repeat' split) <;> simp

/-- The blocks that `cycleStart` leaves as they were. -/
@[simp] theorem cycleStart_keeps (s : State) :
    (cycleStart s).pending = s.pending ∧ (cycleStart s).loader = s.loader ∧ (cycleStart s).clock = s.clock ∧
    (cycleStart s).settings = s.settings ∧ (cycleStart s).claims = s.claims ∧ (cycleStart s).selector = s.selector ∧
    (cycleStart s).cues = s.cues ∧ (cycleStart s).peers = s.peers ∧ (cycleStart s).reference = s.reference := by
  simp [cycleStart]

/-- The blocks that `putCell` leaves as they were. -/
@[simp] theorem putCell_keeps (c : BitVec 40) (s : State) :
    (putCell c s).pending = s.pending ∧ (putCell c s).loader = s.loader ∧ (putCell c s).clock = s.clock ∧
    (putCell c s).settings = s.settings ∧ (putCell c s).claims = s.claims ∧ (putCell c s).selector = s.selector ∧
    (putCell c s).cues = s.cues ∧ (putCell c s).tx = s.tx ∧ (putCell c s).rx = s.rx ∧ (putCell c s).peers = s.peers ∧
    (putCell c s).presence = s.presence ∧ (putCell c s).names = s.names ∧ (putCell c s).reference = s.reference ∧
    (putCell c s).port = s.port ∧ (putCell c s).draws = s.draws := by
  simp [putCell]

/-- The blocks that `nextRunningCell` leaves as they were. -/
@[simp] theorem nextRunningCell_keeps (s : State) :
    (nextRunningCell s).pending = s.pending ∧ (nextRunningCell s).loader = s.loader ∧ (nextRunningCell s).clock = s.clock ∧
    (nextRunningCell s).settings = s.settings ∧ (nextRunningCell s).claims = s.claims ∧
    (nextRunningCell s).selector = s.selector ∧ (nextRunningCell s).cues = s.cues ∧ (nextRunningCell s).peers = s.peers ∧
    (nextRunningCell s).reference = s.reference := by
  simp only [nextRunningCell]
  (repeat' split) <;> simp

/-- The blocks that `beginCell` leaves as they were. -/
@[simp] theorem beginCell_keeps (s : State) :
    (beginCell s).pending = s.pending ∧ (beginCell s).loader = s.loader ∧ (beginCell s).clock = s.clock ∧
    (beginCell s).settings = s.settings ∧ (beginCell s).claims = s.claims ∧ (beginCell s).selector = s.selector ∧
    (beginCell s).cues = s.cues ∧ (beginCell s).peers = s.peers ∧ (beginCell s).reference = s.reference := by
  simp only [beginCell]
  (repeat' split) <;> simp

/-- What `midBit` does to the Cell Generator. -/
@[simp] theorem midBit_cells (s : State) : (midBit s).cells = { s.cells with bitClock := false } := rfl

/-- The blocks that `midBit` leaves as they were. -/
@[simp] theorem midBit_keeps (s : State) :
    (midBit s).pending = s.pending ∧ (midBit s).loader = s.loader ∧ (midBit s).clock = s.clock ∧ (midBit s).settings = s.settings ∧
    (midBit s).claims = s.claims ∧ (midBit s).selector = s.selector ∧ (midBit s).cues = s.cues ∧ (midBit s).tx = s.tx ∧
    (midBit s).rx = s.rx ∧ (midBit s).peers = s.peers ∧ (midBit s).presence = s.presence ∧ (midBit s).names = s.names ∧
    (midBit s).reference = s.reference ∧ (midBit s).port = s.port ∧ (midBit s).draws = s.draws := by
  simp [midBit]

/-- The blocks that `bitBoundary` leaves as they were. -/
@[simp] theorem bitBoundary_keeps (s : State) :
    (bitBoundary s).pending = s.pending ∧ (bitBoundary s).loader = s.loader ∧ (bitBoundary s).clock = s.clock ∧
    (bitBoundary s).settings = s.settings ∧ (bitBoundary s).claims = s.claims ∧ (bitBoundary s).selector = s.selector ∧
    (bitBoundary s).cues = s.cues ∧ (bitBoundary s).tx = s.tx ∧ (bitBoundary s).rx = s.rx ∧ (bitBoundary s).peers = s.peers ∧
    (bitBoundary s).presence = s.presence ∧ (bitBoundary s).names = s.names ∧ (bitBoundary s).reference = s.reference ∧
    (bitBoundary s).port = s.port ∧ (bitBoundary s).draws = s.draws := by
  simp only [bitBoundary]
  (repeat' split) <;> simp

/-- The blocks that `switchToReference` leaves as they were. -/
@[simp] theorem switchToReference_keeps (s : State) :
    (switchToReference s).pending = s.pending ∧ (switchToReference s).loader = s.loader ∧
    (switchToReference s).clock = s.clock ∧ (switchToReference s).settings = s.settings ∧
    (switchToReference s).claims = s.claims ∧ (switchToReference s).selector = s.selector ∧
    (switchToReference s).cues = s.cues ∧ (switchToReference s).tx = s.tx ∧ (switchToReference s).rx = s.rx ∧
    (switchToReference s).peers = s.peers ∧ (switchToReference s).presence = s.presence ∧
    (switchToReference s).names = s.names ∧ (switchToReference s).draws = s.draws := by
  simp [switchToReference]

/-- The blocks that `cellBoundary` leaves as they were. -/
@[simp] theorem cellBoundary_keeps (s : State) :
    (cellBoundary s).pending = s.pending ∧ (cellBoundary s).loader = s.loader ∧ (cellBoundary s).clock = s.clock ∧
    (cellBoundary s).settings = s.settings ∧ (cellBoundary s).claims = s.claims ∧ (cellBoundary s).selector = s.selector ∧
    (cellBoundary s).cues = s.cues ∧ (cellBoundary s).peers = s.peers := by
  simp only [cellBoundary]
  (repeat' split) <;> simp

/-- The blocks that `endAwait` leaves as they were. -/
@[simp] theorem endAwait_keeps (s : State) :
    (endAwait s).pending = s.pending ∧ (endAwait s).loader = s.loader ∧ (endAwait s).clock = s.clock ∧
    (endAwait s).settings = s.settings ∧ (endAwait s).claims = s.claims ∧ (endAwait s).selector = s.selector ∧
    (endAwait s).cues = s.cues ∧ (endAwait s).tx = s.tx ∧ (endAwait s).rx = s.rx ∧ (endAwait s).peers = s.peers ∧
    (endAwait s).presence = s.presence ∧ (endAwait s).names = s.names ∧ (endAwait s).port = s.port ∧
    (endAwait s).draws = s.draws := by
  simp [endAwait]

/-- The blocks that `referenceEdge` leaves as they were. -/
@[simp] theorem referenceEdge_keeps (s : State) :
    (referenceEdge s).pending = s.pending ∧ (referenceEdge s).loader = s.loader ∧ (referenceEdge s).clock = s.clock ∧
    (referenceEdge s).settings = s.settings ∧ (referenceEdge s).claims = s.claims ∧ (referenceEdge s).selector = s.selector ∧
    (referenceEdge s).cues = s.cues ∧ (referenceEdge s).tx = s.tx ∧ (referenceEdge s).rx = s.rx ∧
    (referenceEdge s).peers = s.peers ∧ (referenceEdge s).presence = s.presence ∧ (referenceEdge s).names = s.names ∧
    (referenceEdge s).port = s.port ∧ (referenceEdge s).draws = s.draws := by
  simp only [referenceEdge]
  (repeat' split) <;> simp

/-- The blocks that `loseReference` leaves as they were. -/
@[simp] theorem loseReference_keeps (s : State) :
    (loseReference s).pending = s.pending ∧ (loseReference s).loader = s.loader ∧ (loseReference s).clock = s.clock ∧
    (loseReference s).settings = s.settings ∧ (loseReference s).claims = s.claims ∧ (loseReference s).selector = s.selector ∧
    (loseReference s).cues = s.cues ∧ (loseReference s).tx = s.tx ∧ (loseReference s).rx = s.rx ∧
    (loseReference s).peers = s.peers ∧ (loseReference s).presence = s.presence ∧ (loseReference s).names = s.names ∧
    (loseReference s).draws = s.draws := by
  simp only [loseReference]
  (repeat' split) <;> simp

/-- The blocks that `referenceGap` leaves as they were. -/
@[simp] theorem referenceGap_keeps (s : State) :
    (referenceGap s).pending = s.pending ∧ (referenceGap s).loader = s.loader ∧ (referenceGap s).clock = s.clock ∧
    (referenceGap s).settings = s.settings ∧ (referenceGap s).claims = s.claims ∧ (referenceGap s).selector = s.selector ∧
    (referenceGap s).cues = s.cues ∧ (referenceGap s).tx = s.tx ∧ (referenceGap s).rx = s.rx ∧
    (referenceGap s).peers = s.peers ∧ (referenceGap s).presence = s.presence ∧ (referenceGap s).names = s.names ∧
    (referenceGap s).draws = s.draws := by
  simp only [referenceGap]
  (repeat' split) <;> simp

/-- The blocks that `returnComplete` leaves as they were. -/
@[simp] theorem returnComplete_keeps (s : State) :
    (returnComplete s).pending = s.pending ∧ (returnComplete s).loader = s.loader ∧ (returnComplete s).clock = s.clock ∧
    (returnComplete s).settings = s.settings ∧ (returnComplete s).claims = s.claims ∧
    (returnComplete s).selector = s.selector ∧ (returnComplete s).cues = s.cues ∧ (returnComplete s).tx = s.tx ∧
    (returnComplete s).rx = s.rx ∧ (returnComplete s).peers = s.peers ∧ (returnComplete s).presence = s.presence ∧
    (returnComplete s).names = s.names ∧ (returnComplete s).cells = s.cells ∧ (returnComplete s).port = s.port ∧
    (returnComplete s).draws = s.draws := by
  simp only [returnComplete]
  (repeat' split) <;> simp

/-- The blocks that `takeEvents` leaves as they were. -/
@[simp] theorem takeEvents_keeps (s : State) :
    (takeEvents s).pending = s.pending ∧ (takeEvents s).loader = s.loader ∧ (takeEvents s).clock = s.clock ∧
    (takeEvents s).settings = s.settings ∧ (takeEvents s).claims = s.claims ∧ (takeEvents s).selector = s.selector ∧
    (takeEvents s).cues = s.cues ∧ (takeEvents s).tx = s.tx ∧ (takeEvents s).rx = s.rx ∧ (takeEvents s).peers = s.peers ∧
    (takeEvents s).presence = s.presence ∧ (takeEvents s).names = s.names ∧ (takeEvents s).cells = s.cells ∧
    (takeEvents s).reference = s.reference ∧ (takeEvents s).draws = s.draws := by
  simp [takeEvents]

/-- The blocks that `clearPeerCounts` leaves as they were. -/
@[simp] theorem clearPeerCounts_keeps (s : State) :
    (clearPeerCounts s).pending = s.pending ∧ (clearPeerCounts s).loader = s.loader ∧ (clearPeerCounts s).clock = s.clock ∧
    (clearPeerCounts s).settings = s.settings ∧ (clearPeerCounts s).claims = s.claims ∧
    (clearPeerCounts s).selector = s.selector ∧ (clearPeerCounts s).cues = s.cues ∧ (clearPeerCounts s).tx = s.tx ∧
    (clearPeerCounts s).rx = s.rx ∧ (clearPeerCounts s).presence = s.presence ∧ (clearPeerCounts s).names = s.names ∧
    (clearPeerCounts s).cells = s.cells ∧ (clearPeerCounts s).reference = s.reference ∧ (clearPeerCounts s).port = s.port ∧
    (clearPeerCounts s).draws = s.draws := by
  simp [clearPeerCounts]

/-- The blocks that `mapChannels` leaves as they were. -/
@[simp] theorem mapChannels_keeps (f : Channel → Channel) (s : State) :
    (mapChannels f s).pending = s.pending ∧ (mapChannels f s).loader = s.loader ∧ (mapChannels f s).clock = s.clock ∧
    (mapChannels f s).settings = s.settings ∧ (mapChannels f s).claims = s.claims ∧ (mapChannels f s).selector = s.selector ∧
    (mapChannels f s).tx = s.tx ∧ (mapChannels f s).rx = s.rx ∧ (mapChannels f s).peers = s.peers ∧
    (mapChannels f s).presence = s.presence ∧ (mapChannels f s).names = s.names ∧ (mapChannels f s).cells = s.cells ∧
    (mapChannels f s).reference = s.reference ∧ (mapChannels f s).port = s.port ∧ (mapChannels f s).draws = s.draws := by
  simp [mapChannels]

/-- The blocks that `setProgrammeName` leaves as they were. -/
@[simp] theorem setProgrammeName_keeps (t : Text) (s : State) :
    (setProgrammeName t s).pending = s.pending ∧ (setProgrammeName t s).loader = s.loader ∧
    (setProgrammeName t s).clock = s.clock ∧ (setProgrammeName t s).settings = s.settings ∧
    (setProgrammeName t s).claims = s.claims ∧ (setProgrammeName t s).selector = s.selector ∧
    (setProgrammeName t s).cues = s.cues ∧ (setProgrammeName t s).peers = s.peers ∧
    (setProgrammeName t s).presence = s.presence ∧ (setProgrammeName t s).cells = s.cells ∧
    (setProgrammeName t s).reference = s.reference := by
  simp [setProgrammeName]

/-- The blocks that `clearQueue` leaves as they were. -/
@[simp] theorem clearQueue_keeps (s : State) :
    (clearQueue s).pending = s.pending ∧ (clearQueue s).loader = s.loader ∧ (clearQueue s).clock = s.clock ∧
    (clearQueue s).settings = s.settings ∧ (clearQueue s).claims = s.claims ∧ (clearQueue s).selector = s.selector ∧
    (clearQueue s).cues = s.cues ∧ (clearQueue s).rx = s.rx ∧ (clearQueue s).peers = s.peers ∧
    (clearQueue s).presence = s.presence ∧ (clearQueue s).names = s.names ∧ (clearQueue s).cells = s.cells ∧
    (clearQueue s).reference = s.reference ∧ (clearQueue s).port = s.port ∧ (clearQueue s).draws = s.draws := by
  simp [clearQueue]

/-- The blocks that `clearReleases` leaves as they were. -/
@[simp] theorem clearReleases_keeps (s : State) :
    (clearReleases s).pending = s.pending ∧ (clearReleases s).loader = s.loader ∧ (clearReleases s).clock = s.clock ∧
    (clearReleases s).settings = s.settings ∧ (clearReleases s).claims = s.claims ∧ (clearReleases s).selector = s.selector ∧
    (clearReleases s).cues = s.cues ∧ (clearReleases s).peers = s.peers ∧ (clearReleases s).presence = s.presence ∧
    (clearReleases s).names = s.names ∧ (clearReleases s).cells = s.cells ∧ (clearReleases s).reference = s.reference := by
  unfold clearReleases
  generalize liveLocals s = l
  induction l generalizing s with
  | nil => simp
  | cons e l ih => simp [ih]

/-- The blocks that `clearTable` leaves as they were. -/
@[simp] theorem clearTable_keeps (s : State) :
    (clearTable s).pending = s.pending ∧ (clearTable s).loader = s.loader ∧ (clearTable s).clock = s.clock ∧
    (clearTable s).settings = s.settings ∧ (clearTable s).cues = s.cues ∧ (clearTable s).tx = s.tx ∧ (clearTable s).rx = s.rx ∧
    (clearTable s).peers = s.peers ∧ (clearTable s).presence = s.presence ∧ (clearTable s).names = s.names ∧
    (clearTable s).reference = s.reference ∧ (clearTable s).draws = s.draws := by
  simp [clearTable]

/-- The blocks that `clearCues` leaves as they were. -/
@[simp] theorem clearCues_keeps (s : State) :
    (clearCues s).pending = s.pending ∧ (clearCues s).loader = s.loader ∧ (clearCues s).clock = s.clock ∧
    (clearCues s).settings = s.settings ∧ (clearCues s).claims = s.claims ∧ (clearCues s).selector = s.selector ∧
    (clearCues s).tx = s.tx ∧ (clearCues s).rx = s.rx ∧ (clearCues s).peers = s.peers ∧ (clearCues s).presence = s.presence ∧
    (clearCues s).names = s.names ∧ (clearCues s).cells = s.cells ∧ (clearCues s).reference = s.reference ∧
    (clearCues s).port = s.port ∧ (clearCues s).draws = s.draws := by
  simp [clearCues]

/-- The blocks that `clearReference` leaves as they were. -/
@[simp] theorem clearReference_keeps (s : State) :
    (clearReference s).pending = s.pending ∧ (clearReference s).loader = s.loader ∧ (clearReference s).clock = s.clock ∧
    (clearReference s).settings = s.settings ∧ (clearReference s).claims = s.claims ∧
    (clearReference s).selector = s.selector ∧ (clearReference s).cues = s.cues ∧ (clearReference s).tx = s.tx ∧
    (clearReference s).rx = s.rx ∧ (clearReference s).peers = s.peers ∧ (clearReference s).presence = s.presence ∧
    (clearReference s).names = s.names ∧ (clearReference s).cells = s.cells ∧ (clearReference s).port = s.port ∧
    (clearReference s).draws = s.draws := by
  simp only [clearReference]
  (repeat' split) <;> simp

/-- The blocks that `clearCounters` leaves as they were. -/
@[simp] theorem clearCounters_keeps (s : State) :
    (clearCounters s).pending = s.pending ∧ (clearCounters s).loader = s.loader ∧ (clearCounters s).clock = s.clock ∧
    (clearCounters s).settings = s.settings ∧ (clearCounters s).selector = s.selector ∧ (clearCounters s).cues = s.cues ∧
    (clearCounters s).tx = s.tx ∧ (clearCounters s).peers = s.peers ∧ (clearCounters s).presence = s.presence ∧
    (clearCounters s).names = s.names ∧ (clearCounters s).cells = s.cells ∧ (clearCounters s).reference = s.reference ∧
    (clearCounters s).port = s.port ∧ (clearCounters s).draws = s.draws := by
  simp [clearCounters]

/-- The blocks that `clearAll` leaves as they were. -/
@[simp] theorem clearAll_keeps (s : State) :
    (clearAll s).pending = s.pending ∧ (clearAll s).loader = s.loader ∧ (clearAll s).clock = s.clock ∧
    (clearAll s).settings = s.settings ∧ (clearAll s).names = s.names := by
  simp [clearAll]

/-- The blocks that `takeRestart` leaves as they were. -/
@[simp] theorem takeRestart_keeps (s : State) :
    (takeRestart s).pending = s.pending ∧ (takeRestart s).loader = s.loader ∧ (takeRestart s).clock = s.clock ∧
    (takeRestart s).settings = s.settings ∧ (takeRestart s).claims = s.claims ∧ (takeRestart s).selector = s.selector ∧
    (takeRestart s).cues = s.cues ∧ (takeRestart s).tx = s.tx ∧ (takeRestart s).rx = s.rx ∧ (takeRestart s).peers = s.peers ∧
    (takeRestart s).presence = s.presence ∧ (takeRestart s).names = s.names ∧ (takeRestart s).cells = s.cells ∧
    (takeRestart s).reference = s.reference ∧ (takeRestart s).draws = s.draws := by
  simp [takeRestart]

/-- The blocks that `refuseCode` leaves as they were. -/
@[simp] theorem refuseCode_keeps (c : Byte) (s : State) :
    (refuseCode c s).pending = s.pending ∧ (refuseCode c s).loader = s.loader ∧ (refuseCode c s).clock = s.clock ∧
    (refuseCode c s).settings = s.settings ∧ (refuseCode c s).claims = s.claims ∧ (refuseCode c s).selector = s.selector ∧
    (refuseCode c s).cues = s.cues ∧ (refuseCode c s).tx = s.tx ∧ (refuseCode c s).rx = s.rx ∧
    (refuseCode c s).peers = s.peers ∧ (refuseCode c s).presence = s.presence ∧ (refuseCode c s).names = s.names ∧
    (refuseCode c s).cells = s.cells ∧ (refuseCode c s).reference = s.reference ∧ (refuseCode c s).draws = s.draws := by
  simp only [refuseCode]
  (repeat' split) <;> simp

/-- What happens while no command waits and no event is due: the bit clock falls, or station time increases by one, or, while the
reset pin is held, nothing. -/
theorem passTime_cases (s : State) :
    (midBitDue s = true ∧ passTime s = midBit s)
    ∨ (midBitDue s = false ∧ s.loader.resetHeld = true ∧ passTime s = s)
    ∨ (midBitDue s = false ∧ s.loader.resetHeld = false ∧ passTime s = s.setClock (s.clock.advance s.running)) := by
  unfold passTime tick
  (repeat' split) <;> simp_all

/-- R171: the part sends 0x00 while the command is clocked in, then its output byte by byte. -/
theorem byteSent_spec (s : State) (code : Byte) :
    (∀ i, i < commandLength code → s.byteSent code i = 0x00)
    ∧ ∀ i, s.byteSent code (commandLength code + i) = byteAt s.port.output i := by
  refine ⟨fun i h => if_pos h, fun i => ?_⟩
  rw [State.byteSent, if_neg (by omega), Nat.add_sub_cancel_left, byteAt]

/-- R100: what is read from the levels of a character is the character, and a stop bit away from rest is its framing error. -/
theorem characterOf_levels (c : Byte) (stop : Bool) :
    characterOf (false :: (List.range 8).map c.getLsbD ++ [stop]) = (c, !stop) := by
  have h : byteOfBits ((List.range 8).map c.getLsbD).reverse = c := by
    apply BitVec.eq_of_getLsbD_eq
    intro i hi
    have : i = 0 ∨ i = 1 ∨ i = 2 ∨ i = 3 ∨ i = 4 ∨ i = 5 ∨ i = 6 ∨ i = 7 := by omega
    rcases this with rfl | rfl | rfl | rfl | rfl | rfl | rfl | rfl <;> simp [byteOfBits, List.range, List.range.loop]
  exact Prod.ext h rfl

/-- R100: a character of another station arrives as it was sent. -/
theorem receiveLevels_characterLevels (c : Byte) (s : State) :
    receiveLevels (characterLevels c) s = receiveCharacter c false false s := by
  rw [receiveLevels, characterLevels, characterOf_levels]; rfl

/-- R171, R188: bit `j` of byte `i` on the data output, the most significant first. -/
theorem bitSent_spec (s : State) (code : Byte) (i j : Nat) (h : j < 8) :
    s.bitSent code (8 * i + j) = (s.byteSent code i).getLsbD (7 - j) := by
  rw [State.bitSent, show (8 * i + j) / 8 = i by omega, show (8 * i + j) % 8 = j by omega, BitVec.getMsbD]
  simp [h]

end Sys2Proof.Machine
end

