-- ==== Sys2Proof/Laws/Specs.lean ====
section
/-! SUPPORT. What each shared operation does to the block it writes: one lemma an operation, to be cited in place of unfolding it.
None is a simp lemma. -/

namespace Sys2Proof.Machine

/-! ### The site port and the counters -/

/-- R176: a posted event joins the queue, or sets the overflow flag of a full one. -/
theorem postEvent_spec (kind : EventKind) (a b c : Byte) (s : State) :
    (s.port.events.length < 16 → (postEvent kind a b c s).port =
      { s.port with events := s.port.events ++ [⟨kind, s.clock.stationTime, a, b, c⟩] })
    ∧ (16 ≤ s.port.events.length → (postEvent kind a b c s).port = { s.port with overflow := true }) := by
  constructor <;> intro h
  · simp [postEvent, Config.eventCapacity, h]
  · simp [postEvent, Config.eventCapacity, Nat.not_lt.mpr h]

/-- A reply is what the port returns. -/
theorem answer_spec (r : Reply) (s : State) : answer r s = s.setPort { s.port with output := [r.code] } := rfl

/-- A link counter is changed in place. -/
theorem countLink_spec (f : LinkCounters → LinkCounters) (s : State) :
    (countLink f s).rx = { s.rx with counters := f s.rx.counters } := rfl

/-! ### Entries -/

theorem find_key_map (l : List Entry) (k j : Byte × Byte) (f : Entry → Entry) (hf : ∀ e, (f e).key = e.key) :
    (l.map fun e => if e.key == k then f e else e).find? (fun e => e.key == j)
      = if j = k then (l.find? fun e => e.key == k).map f else l.find? fun e => e.key == j := by
  induction l with
  | nil => simp
  | cons e t ih =>
    by_cases hk : e.key = k
    · by_cases hj : j = k
      · simp [hk, hf, hj]
      · have : ¬ k = j := fun h => hj h.symm
        simp [hk, hf, hj, this] at ih ⊢
        exact ih
    · by_cases hj : e.key = j
      · have : ¬ j = k := fun h => hk (hj.trans h)
        simp [hj, this]
      · simp [hk, hj] at ih ⊢
        exact ih

/-- An entry that is changed where it stands is the one that is then found; every other is as it was. -/
theorem updateEntry_spec (k j : Byte × Byte) (f : Entry → Entry) (hf : ∀ e, (f e).key = e.key) (s : State) :
    (updateEntry k f s).entry j = if j = k then (s.entry k).map f else s.entry j :=
  find_key_map s.claims.entries k j f hf

/-- An entry that leaves is not found, and every other is as it was. -/
theorem removeEntry_spec (k j : Byte × Byte) (s : State) :
    (removeEntry k s).entry j = if j = k then none else s.entry j := by
  show (s.claims.entries.filter fun e => e.key != k).find? (fun e => e.key == j) = _
  unfold State.entry
  induction s.claims.entries with
  | nil => simp
  | cons e t ih =>
    by_cases hk : e.key = k
    · by_cases hj : j = k
      · simp [hj] at ih ⊢
      · have : ¬ k = j := fun h => hj h.symm
        simp [hk, hj, this] at ih ⊢
        exact ih
    · by_cases hj : e.key = j
      · have : ¬ j = k := fun h => hk (hj.trans h)
        simp [hj, this]
      · simp [hk, hj] at ih ⊢
        exact ih

/-- An entry that is made is found where none of its identity was held; every other is as it was. -/
theorem admitEntry_spec (e : Entry) (j : Byte × Byte) (s : State) :
    (admitEntry e s).entry j = match s.entry j with
      | some x => some x
      | none => if e.key = j then some e else none := by
  show (s.claims.entries ++ [e]).find? (fun x => x.key == j) = _
  unfold State.entry
  rw [List.find?_append]
  cases h : s.claims.entries.find? fun x => x.key == j <;> by_cases hj : e.key = j <;> simp [hj]

/-- An entry that is found has the identity it was sought by. -/
theorem entry_key {s : State} {k : Byte × Byte} {e : Entry} (h : s.entry k = some e) : e.key = k := by
  have := List.find?_some h
  simpa using this

/-- R1, R16, R17: a place is free, or the victim makes one. -/
theorem makeRoom_spec (takes : Entry → Bool) (s t : State) (h : makeRoom takes s = some t) :
    (s.claims.entries.length < 16 ∧ t = s)
    ∨ (16 ≤ s.claims.entries.length
       ∧ ((∃ v, endingVictim s = some v ∧ t = removeEntry v.key s)
         ∨ (∃ v, endingVictim s = none ∧ waitingVictim s = some v ∧ takes v = true ∧ t = removeEntry v.key s))) := by
  unfold makeRoom at h
  split at h
  · next hl => left; exact ⟨hl, by simpa using h.symm⟩
  · next hl =>
    right
    refine ⟨Nat.le_of_not_lt hl, ?_⟩
    split at h
    · next v hv => left; exact ⟨v, hv, by simpa using h.symm⟩
    · next hn =>
      right
      split at h
      · next v hv =>
        split at h
        · next ht => exact ⟨v, hn, hv, ht, by simpa using h.symm⟩
        · cases h
      · cases h

/-! ### Peers -/

/-- The entry of a station is changed; every other is as it was. -/
theorem updatePeer_spec (p q : Byte) (f : Peer → Peer) (s : State) :
    (updatePeer p f s).peer q = if q = p ∧ isStation p = true then f (s.peer p) else s.peer q := by
  by_cases hp : isStation p = true
  · have hb : 1 ≤ p.toNat ∧ p.toNat ≤ 31 := by simpa [isStation] using hp
    by_cases hq : isStation q = true
    · have hc : 1 ≤ q.toNat ∧ q.toNat ≤ 31 := by simpa [isStation] using hq
      have hlt : p.toNat - 1 < 31 := by omega
      by_cases e : q = p
      · subst e
        simp [updatePeer, State.peer, hq, List.getD, hlt]
      · have : ¬ p.toNat - 1 = q.toNat - 1 := fun h => e (BitVec.eq_of_toNat_eq (by omega))
        simp [updatePeer, State.peer, hp, hq, e, List.getD, this]
    · have e : ¬ q = p := fun h => hq (h ▸ hp)
      simp [State.peer, hq, e]
  · simp [updatePeer, hp]

/-- R14, R126: a number is offered to the last ended number of its origin. -/
theorem noteEnded_spec (o n q : Byte) (s : State) :
    (noteEnded o n s).peer q =
      if q = o ∧ isStation o = true then { s.peer o with lastEnded := nextLastEnded (s.peer o).lastEnded n } else s.peer q :=
  updatePeer_spec o q _ s

/-! ### The outgoing queue -/

/-- R111, R115: a frame is placed; the head draws a backoff when it is new. -/
theorem placeFrame_spec (f : Frame) (s : State) :
    (placeFrame f s).tx.queue = insertFrame f s.tx.queue
    ∧ (placeFrame f s).tx.renewal = s.tx.renewal ∧ (placeFrame f s).tx.sending = s.tx.sending
    ∧ (placeFrame f s).tx.driverEnable = s.tx.driverEnable
    ∧ ((insertFrame f s.tx.queue).head? = s.tx.queue.head? → (placeFrame f s).tx.backoff = s.tx.backoff) := by
  simp only [placeFrame]
  split
  · exact ⟨rfl, rfl, rfl, rfl, fun _ => rfl⟩
  · next h =>
    unfold drawBackoff
    split
    · next hq => exact ⟨rfl, rfl, rfl, rfl, fun hh => absurd hh h⟩
    · next hq => exact ⟨rfl, rfl, rfl, rfl, fun hh => absurd hh h⟩

/-- R111: a queue with room takes the frame. -/
theorem offerFrame_room (f : Frame) (s : State) (h : s.tx.queue.length < 8) : offerFrame f s = placeFrame f s := by
  simp [offerFrame, Config.queueCapacity, h]

/-- R112 to R114: what an offer does, by the frame's kind and by what is held. -/
theorem offer_spec (body : FrameBody) (s : State) :
    offer body s = offerFrame (ownFrame s body) s
    ∨ (∃ n c a l k, body = .claim n c a l k ∧ s.tx.queue.any (Frame.isWaitingClaim n) = true
        ∧ offer body s = setQueue (s.tx.queue.map fun f => if f.isWaitingClaim n then f.withRefreshCount k else f) s)
    ∨ (∃ held, s.tx.queue.find? Frame.isPresence = some held
        ∧ ((held.inTransmission = true ∧ offer body s = s.setTx { s.tx with renewal := true })
          ∨ (held.inTransmission = false
             ∧ offer body s = setQueue (s.tx.queue.map fun f => if f.isPresence then { f with body := body } else f) s))) := by
  cases body with
  | claim n c a l k =>
    simp only [offer]
    split
    · next h => exact .inr (.inl ⟨n, c, a, l, k, rfl, h, rfl⟩)
    · exact .inl rfl
  | presence level fp =>
    simp only [offer]
    split
    · exact .inl rfl
    · next held h =>
      refine .inr (.inr ⟨held, h, ?_⟩)
      cases ht : held.inTransmission <;> simp
  | release _ _ => exact .inl rfl
  | lapse _ _ => exact .inl rfl
  | name _ _ => exact .inl rfl

/-- R134, R136: activity returns the level to ACTIVE with both timers 0. -/
theorem activity_spec (s : State) :
    (activity s).presence = { level := .active, downshiftTimer := 0, presenceTimer := 0, downshiftDue := false } := by
  simp [activity, offerPresence]

/-! ### The on-air slot -/

/-- R52 to R55: what an on-air change leaves in the selector and the Cell Generator. -/
theorem onAirChange_spec (old : Byte) (new : Option Entry) (s : State) :
    (onAirChange old new s).selector =
      { onAir := new.map Entry.key, guard := guardFrom s, sequence := s.selector.sequence + 1,
        feedSelect := (match new with | none => 0 | some e => s.settings.feedOf e.origin), feedEnable := new.isSome }
    ∧ (onAirChange old new s).cells = { s.cells with burst := 3 }
    ∧ (onAirChange old new s).claims = s.claims
    ∧ (onAirChange old new s).presence = { level := .active, downshiftTimer := 0, presenceTimer := 0, downshiftDue := false } := by
  refine ⟨?_, ?_, by simp, activity_spec _⟩ <;> cases new <;> simp [onAirChange]

/-- R45 to R49: a selection run makes no change, fills an empty slot or takes a preemption. -/
theorem select_spec (s : State) :
    select s = s
    ∨ (∃ x, s.selector.onAir = none ∧ s.bestWaiting = some x
        ∧ select s = onAirChange 0 (some x) (setEntryState x.key .onAir s))
    ∨ (∃ k x y, s.selector.onAir = some k ∧ s.entry k = some y ∧ s.bestWaiting = some x ∧ s.settings.preempts x y = true
        ∧ s.selector.guard = none
        ∧ select s = onAirChange y.origin (some x) (setEntryState x.key .onAir (setEntryState y.key .waiting s))) := by
  unfold select
  split
  · next h =>
    unfold fillSlot
    split
    · next x hx => exact .inr (.inl ⟨x, h, hx, rfl⟩)
    · exact .inl rfl
  · next k h =>
    split
    · next y x hy hx =>
      split
      · next hp =>
        simp only [Bool.and_eq_true, Option.isNone_iff_eq_none] at hp
        exact .inr (.inr ⟨k, x, y, h, hy, hx, hp.1, hp.2, rfl⟩)
      · exact .inl rfl
    · exact .inl rfl

/-- R14: anything but a live entry is left as it is. -/
theorem endEntry_none (k : Byte × Byte) (cause : EndCause) (s : State) (h : ∀ e, s.entry k = some e → e.state = .ending) :
    endEntry k cause s = s := by
  unfold endEntry
  split
  · rfl
  · next e he => simp [Entry.live, h e he]

end Sys2Proof.Machine
end

