-- ==== Sys2Proof/Tests/Slice0.lean ====
section
/-! SUPPORT. The model's own tests. Each expected value comes from the spec: a worked example, a table, or a hand calculation from a
rule. The second half shows, for each statement of Certificates/Slice0/Obligations.lean that has hypotheses, a concrete state and
operands that meet them together. -/

namespace Sys2Proof.Tests

open Sys2Proof Sys2Proof.Machine

-- The tests are elaborated one after another: side by side, their threads' stacks come close to the memory limit of the check.
set_option Elab.async false

/-! ### Well-formedness: each check refuses an ill-formed command -/

theorem test_wf_lifetime_origin : (Instr.claimLifetimeExpiry 32 0).wellFormed = false := by decide
theorem test_wf_tail_origin : (Instr.endingTailExpiry 0 5).wellFormed = false := by decide
theorem test_wf_deadline_station : (Instr.peerDeadlineReached 32).wellFormed = false := by decide
theorem test_wf_stray_start : (Instr.strayCharacter 0xC3 false).wellFormed = false := by decide
theorem test_wf_stray_framing : (Instr.strayCharacter 0xC3 true).wellFormed = true := by decide
theorem test_wf_bad_length_inside : (Instr.badLengthCharacter 20 false).wellFormed = false := by decide
theorem test_wf_bad_length_outside : (Instr.badLengthCharacter 21 false).wellFormed = true := by decide
theorem test_wf_manual_known : (Instr.manualCueUnknown 2).wellFormed = false := by decide
theorem test_wf_unknown_known : (Instr.unknownCommand 0x2F).wellFormed = false := by decide

/-! ### Formats -/

/-- R105: the CRC of the text "123456789" is 0x29B1. -/
theorem test_crc16_check : crc16 [0x31, 0x32, 0x33, 0x34, 0x35, 0x36, 0x37, 0x38, 0x39] = 0x29B1 := by decide +kernel

/-- R156: the check byte of a FILL cell is 0x03. -/
theorem test_fill_cell : fillCell = 0xF000000003 := by decide +kernel

/-- Format Tables, Worked example: the CLAIM frame's twelve characters. -/
def exampleFrame : Frame := ⟨7, 0x51, .claim 42 .traffic 0x16 0 5, false, 1⟩

theorem test_claim_frame :
    exampleFrame.characters.take 10 = [0xC3, 0x08, 0x02, 0x07, 0x51, 0x2A, 0x01, 0x16, 0x00, 0x05]
    ∧ exampleFrame.characters.length = 12 := by decide +kernel

/-- A character of value 0x51 on the link (R100); and a line held away from rest: one character with a framing error (R101). -/
theorem test_character_levels :
    characterLevels 0x51 = [false, true, false, false, false, true, false, true, false, true]
    ∧ characterOf (characterLevels 0x51) = (0x51, false) ∧ characterOf (List.replicate 10 false) = (0x00, true) := by decide

/-- MANUAL_CUE stop, 0x11 and 0x02, with three bits of a further byte (R171). -/
theorem test_decode_bits :
    decodeBits [false, false, false, true, false, false, false, true, false, false, false, false, false, false, true, false,
                true, true, true] = .manualCueStop := by decide

theorem test_decode_set_name_short : decodeTransaction (0x10 :: List.replicate 11 0x41) = .transactionAbandoned := by decide
theorem test_decode_manual_stop : decodeTransaction [0x11, 0x02, 0xFF] = .manualCueStop := by decide
theorem test_decode_unknown : decodeTransaction [0x2E] = .unknownCommand 0x2E := by decide
theorem test_no_word_spells : decodeTableWord 8 0x01 = none := by decide

/-! ### Values of the worked cases -/

/-- The default parameters (chapter Precedence Arithmetic) at station 12, which serves areas 3, 5 and 6, with feed 4 for station 7,
feed 6 for station 9 and feed 1 for itself. -/
def cfg : Settings :=
  { settingsAtStart with
    station := 12, served := 0x34, fingerprint := 0x1234,
    feedMap := #v[0, 0, 0, 0, 0, 0, 4, 0, 6, 0, 7, 1, 0, 0, 0, 0, 0, 0, 0, 0, 0, 0, 0, 0, 0, 0, 0, 0, 0, 0, 0],
    weightRoutine := 32, weightTraffic := 96, weightUrgent := 160, weightAlert := 224, areaStep := 8, ageShift := 3, ageCap := 48,
    localBonus := 20, demoteStep := 40, margin := 24, guardTime := 2, lifetime := 7, tail := 10 }

/-- A demoted remote claim: 109. -/
theorem test_score_demoted : cfg.score .traffic 2 300 false 1 = 109 := by decide
/-- A fresh local claim: 188, and its threshold: 212. -/
theorem test_score_local : cfg.score .urgent 1 4 true 0 = 188 ∧ satAdd 188 cfg.margin = 212 := by decide
/-- Saturation in the first stage: 175. -/
theorem test_score_saturates : cfg.score .alert 8 1000 true 2 = 175 := by decide
/-- The area count of areas 2, 3 and 5 against 3, 5 and 6. -/
theorem test_shared_areas : sharedAreas 0x16 0x34 = 2 := by decide

/-- The holds of the stages that the clamp of R86 leaves. -/
def holdsUsed (holds : List Nat) : List Nat := (raiseHolds 0 (holds.map fun h => ⟨h, .notify⟩)).map Stage.hold

theorem test_holds_off_between : holdsUsed [60, 0, 30, 120] = [60, 0, 60, 120] := by decide
theorem test_holds_all_raised : holdsUsed [300, 200, 100, 0] = [300, 300, 300, 0] := by decide
theorem test_holds_top : holdsUsed [65535, 10, 0, 0] = [65535, 65535, 0, 0] := by decide

theorem test_numbers_not_comparable : notComparable 200 72 = true ∧ newerNumber 3 250 = true := by decide
theorem test_name_newer_wraps : newerName ⟨spaces, 2, 7⟩ ⟨spaces, 65535, 7⟩ = true := by decide
theorem test_name_not_comparable : newerName ⟨spaces, 32868, 2⟩ ⟨spaces, 100, 7⟩ = false := by decide

/-! ### States -/

/-- A RUNNING part after its load and its first cell, with an empty queue and the line idle. -/
def idle : State :=
  { State.reset with
    loader := { State.reset.loader with runState := .running }
    settings := cfg
    cells := { State.reset.cells with bit := some 39 }
    rx := { State.reset.rx with line := .idle, state := .ready } }

/-- A remote WAITING candidate of TRAFFIC with areas 2, 3 and 5. -/
def remote (origin number : Byte) (score : Nat) : Entry :=
  { origin := origin, number := number, isLocal := false, source := none, cls := .traffic, areas := 0x16, label := 0,
    candidate := true, state := .waiting, age := 0, lastRefresh := some 0, demotions := 0, stagesFired := 0, score := score,
    endCause := none, endingSince := none, repeatsLeft := none, refreshCount := 0, mismatchReported := false, madeSecond := 0,
    nextRefresh := 0 }

/-- A local WAITING non-candidate of a cue source. -/
def own (number : Byte) (source : Fin 5) : Entry :=
  { remote 12 number 148 with
    isLocal := true, source := some source, areas := 0x01, candidate := false, lastRefresh := none, refreshCount := 1,
    nextRefresh := 2 }

/-- `idle` with these entries. -/
def withEntries (l : List Entry) (s : State) : State := s.setClaims { s.claims with entries := l }

/-- `idle` with `e` on air. -/
def onAir (e : Entry) (s : State) : State :=
  (withEntries ({ e with state := .onAir } :: s.claims.entries) s).setSelector
    { s.selector with onAir := some e.key, feedSelect := s.settings.feedOf e.origin, feedEnable := true, sequence := 17 }

/-- A part whose receiver has stored every character of `f` but the last, with `f`'s sender known. -/
def before (f : Frame) (s : State) : State :=
  let heard := s.setPeers (s.peers.setIfInBounds (f.origin.toNat - 1)
    { peerAtStart with state := .present, mark := some f.mark, deadline := some 150 })
  heard.setRx { s.rx with state := .assembling, length := some f.lengthByte, buffer := (f.characters.drop 2).dropLast }

/-- The last character of a frame. -/
def lastOf (f : Frame) : Byte := f.characters.getLastD 0

/-- What holds of the next state of a command. -/
def after (c : Instr) (s : State) (holds : State → Bool) : Bool :=
  match exec c s with
  | .next t => holds t
  | .fault _ => false
  | .refused _ => false

/-- An image: 201 bytes and their CRC, high byte first (R180). -/
def image (body : List Byte) : List Byte := body ++ halfBytes (crc16 body)

/-- The first 201 bytes of an image with this format mark, station number and served area set, and zeros behind them. -/
def header (mark station served : Byte) : List Byte := [mark, station, served] ++ List.replicate 198 0

theorem header_length (mark station served : Byte) : (header mark station served).length = 201 := by
  rw [header, List.length_append, List.length_replicate]; rfl

theorem halfOf_bytes (h : Half) : halfOf (hiByte h) (loByte h) = h := by
  simp only [halfOf, hiByte, loByte]
  apply BitVec.eq_of_getLsbD_eq
  intro i hi
  simp only [BitVec.getLsbD_append, BitVec.getLsbD_extractLsb']
  split <;> simp_all; omega

theorem image_crc (body : List Byte) (h : body.length = 201) : imageCrc (image body) = imageStoredCrc (image body) := by
  simp [imageCrc, imageStoredCrc, image, h, byteAt, List.getD, halfBytes, halfOf_bytes]

theorem image_byte (body : List Byte) (i : Nat) (h : i < body.length) : byteAt (image body) i = byteAt body i := by
  simp [image, byteAt, List.getD, List.getElem?_append_left h]

/-- An image of 203 bytes as LOAD_COMPLETE carries it. -/
def loaded (body : List Byte) (h : body.length = 201) : Vector Byte 203 := ⟨⟨image body⟩, by simp [image, h, halfBytes]⟩

/-! ### Commands, from the worked sequences of the chapters -/

/-- Station 7's frames of these tests, with start mark 0x51. -/
def from7 (b : FrameBody) : Frame := ⟨7, 0x51, b, false, 1⟩

/-- A release overtaking a refresh, at 100: the claim is made and put ON_AIR. -/
theorem test_claim_goes_on_air :
    let f := from7 (.claim 42 .traffic 0x16 0 0)
    after (.claimFrame (lastOf f)) (before f idle) (fun t =>
      t.selector.onAir == some (7, 42) && t.selector.feedSelect == 4 && t.selector.sequence == 1
        && (t.entry (7, 42)).map Entry.score == some 112) = true := by decide +kernel

/-- The same sequence, at 105: the CLAIM after the RELEASE is stale. -/
theorem test_claim_after_release_is_stale :
    let f := from7 (.claim 42 .traffic 0x16 0 3)
    let ended := { remote 7 42 112 with state := .ending, endCause := some .released, endingSince := some 0 }
    after (.claimFrame (lastOf f)) (before f (withEntries [ended] idle)) (fun t =>
      t.claims.stale == 1 && t.claims.entries == [ended]) = true := by decide +kernel

theorem test_release_ends :
    let f := from7 (.release 42 0)
    after (.releaseFrame (lastOf f)) (before f (onAir (remote 7 42 112) idle)) (fun t =>
      (t.entry (7, 42)).bind Entry.endCause == some .released && (t.peer 7).lastEnded == some 42 && t.selector.onAir == none
        && t.selector.feedEnable == false) = true := by decide +kernel

/-- A repeat index above 2 makes the frame malformed (R6); it was accepted first (R108). -/
theorem test_release_malformed :
    let f := from7 (.release 42 3)
    after (.releaseFrame (lastOf f)) (before f (onAir (remote 7 42 112) idle)) (fun t =>
      t.rx.counters.malformed == 1 && t.rx.counters.framesAccepted == 1 && t.selector.onAir == some (7, 42)) = true := by
  decide +kernel

/-- The third cue record sequence, at 14000: a heard LAPSE blocks the channel of a local claim. -/
theorem test_lapse_blocks_channel :
    let f := from7 (.lapse 12 57)
    let s := withEntries [own 57 2] idle
    let s := s.setCues { s.cues with channels := s.cues.channels.set 2 { channelAtStart with
      state := .active, number := some 57, offCount := 2, history := [⟨8995, none, .opened, some 57⟩] } }
    after (.lapseFrame (lastOf f)) (before f s) (fun t =>
      t.cues.channels[2].state == .blocked && t.cues.channels[2].offCount == 0
        && t.cues.channels[2].history.map HistoryRecord.outcome == [.lapsed]) = true := by decide +kernel

theorem test_presence_sets_deadline :
    let f := from7 (.presence .quiet3 0x1234)
    after (.presenceFrame (lastOf f)) (before f idle) (fun t =>
      (t.peer 7).deadline == some 9000 && (t.peer 7).fingerprintMatch == some true && t.port.events == []) = true := by
  decide +kernel

/-- Two studios rename at once: station 9 takes station 4's name over its own pending name of the same version. -/
theorem test_name_of_lower_station :
    let f : Frame := ⟨4, 0x51, .name 18 spaces, false, 1⟩
    let s := idle.setNames { idle.names with pendingName := some ⟨spaces, 18, 9⟩ }
    after (.nameFrame (lastOf f)) (before f s) (fun t => (t.names.pendingName.map NameRecord.origin) == some 4) = true := by
  decide +kernel

/-- A full table: the newcomer's 149 takes the place of (11, 3), the later of the two that score 60. -/
theorem test_full_table :
    let f := from7 (.claim 42 .traffic 0x16 0 150)
    let others := (List.range 13).map fun i => remote 9 (BitVec.ofNat 8 (100 + i)) 200
    let s := withEntries ([remote 4 17 60] ++ others ++ [remote 11 3 60]) idle
    after (.claimFrame (lastOf f)) (before f (onAir (remote 9 61 240) s)) (fun t =>
      t.entry (11, 3) == none && (t.entry (4, 17)).isSome && (t.entry (7, 42)).map Entry.score == some 149
        && t.claims.entries.length == 16) = true := by decide +kernel

/-- The cue source of station 7, channel 2, in the worked sequence of a cue validated and released. -/
def cue7 : SourceConfig :=
  { baseline := 20, lowT := 30, highT := 90, nLo := 5, nHi := 2, nOff := 3, cls := .traffic, areas := 0x16, label := 0 }

/-- `idle` at a sample, with that source on channel 2 in the state `ch`. -/
def atSample (ch : Channel) : State :=
  let s := idle.setSettings { cfg with sources := cfg.sources.set 2 cue7 }
  (s.setCues { s.cues with channels := s.cues.channels.set 2 ch }).setClock { s.clock with stationTime := 1005, sampleDue := true }

/-- At 1005 the run is validated: channel 2 is ACTIVE, and its open record starts at 1001. -/
theorem test_cue_validates :
    after (.cueSample 0 0 55 0 0)
      (atSample { channelAtStart with state := .run, runLength := 4, highCount := 2, runStart := some 1001 }) (fun t =>
        t.cues.channels[2].state == .active && t.cues.channels[2].history == [⟨1001, none, .opened, some 0⟩]) = true := by
  decide +kernel

/-- At 1002 the sample 130 is high. -/
theorem test_cue_counts_high :
    after (.cueSample 0 0 130 0 23)
      (atSample { channelAtStart with state := .run, runLength := 1, runStart := some 1001 }) (fun t =>
        t.cues.channels[2].runLength == 2 && t.cues.channels[2].highCount == 1) = true := by decide +kernel

/-- The origin reaches its hold: at age 180 a DEMOTE stage leaves 106. -/
theorem test_demote_stage :
    let e := { own 42 2 with areas := 0x16, age := 179, stagesFired := 1, score := 146 }
    let s := idle.setSettings { cfg with
      served := 0x02, stages := #v[⟨120, .notify⟩, ⟨180, .demote⟩, ⟨0, .nothing⟩, ⟨300, .lapse⟩] }
    after .ageStep ((withEntries [e] s).setClock { s.clock with secondCount := 180, ageStepDue := true }) (fun t =>
      t.claims.entries.map Entry.score == [106] && t.port.events == [⟨.overrun, 0, 12, 42, 2⟩]) = true := by decide +kernel

/-- A preemption held by the guard: at 201 (9, 61) displaces (7, 42). -/
theorem test_guard_expiry_preempts :
    let s := onAir (remote 7 42 120) (withEntries [{ remote 9 61 232 with cls := .alert, areas := 0x10 }] idle)
    let s := (s.setSelector { s.selector with guard := some 201 }).setClock { s.clock with secondCount := 201 }
    after .guardTimerExpiry s (fun t =>
      t.selector.onAir == some (9, 61) && t.selector.guard == some 203 && t.selector.sequence == 18 && t.selector.feedSelect == 6
        && t.port.events == [⟨.onAirChanged, 0, 9, 61, 7⟩]) = true := by decide +kernel

/-- A peer lost during an announcement: the last ended number is 62, and 2 entries are ended. -/
theorem test_peer_lost :
    let s := onAir (remote 9 61 232) (withEntries [remote 9 62 112, remote 7 42 112] idle)
    let s := s.setPeers (s.peers.setIfInBounds 8 { peerAtStart with state := .present, deadline := some 0, lastEnded := some 60 })
    after (.peerDeadlineReached 9) (s.setClock { s.clock with stationTime := 25, atSecond := true }) (fun t =>
      (t.peer 9).lastEnded == some 62 && t.selector.onAir == some (7, 42)
        && t.port.events.getLast? == some ⟨.peerAbsent, 25, 9, 1, 2⟩) = true := by decide +kernel

/-- A full queue of station 7. -/
def fullQueue : List Frame :=
  [{ from7 (.release 40 1) with inTransmission := true }, from7 (.release 41 0), from7 (.claim 42 .traffic 0x16 0 5),
   from7 (.claim 43 .traffic 0x16 0 2), from7 (.claim 44 .traffic 0x16 0 0), from7 (.name 12 spaces), from7 (.name 13 spaces),
   from7 (.presence .active 0)]

/-- The LAPSE is placed last of rank 0, and the PRESENCE is shed. -/
theorem test_full_queue_sheds_presence :
    let t := offer (.lapse 9 61) (idle.setTx { idle.tx with queue := fullQueue })
    t.tx.queue.map (fun f => f.body.kindCode) = [3, 3, 4, 2, 2, 2, 5, 5] ∧ t.port.events = [⟨.frameDropped, 0, 1, 0, 0⟩] := by
  decide +kernel

/-- A burst inside a cycle: cell 3 is a STATE cell of the burst, with sequence number 18. -/
theorem test_burst_cell :
    let s := onAir { remote 9 61 232 with cls := .alert } (withEntries [remote 7 42 112] idle)
    let s := s.setSelector { s.selector with sequence := 18 }
    after .cellBegin (s.setCells { s.cells with position := 3, burst := 3, boundaryDue := true }) (fun t =>
      t.cells.position == 3 && t.cells.burst == 2 && t.cells.cell >>> 8 == 0x1F340012) = true := by decide +kernel

/-- A loss with glitches: at 5712.3 the return is taken after 4 backup seconds. -/
theorem test_reference_back :
    let s := idle.setReference { idle.reference with state := .returning, returnDue := true, backupSeconds := 4 }
    after .cellBegin (s.setCells { s.cells with boundaryDue := true }) (fun t =>
      t.reference.state == .locked && t.port.events == [⟨.referenceBack, 0, 0, 4, 0⟩]) = true := by decide +kernel

/-- CLEAR during an announcement: CLEARED (3, 1, 0), sequence 31, and the old origin 12. -/
theorem test_clear :
    let ended := { remote 9 60 100 with state := .ending, endCause := some .released, endingSince := some 0 }
    let s := onAir { own 3 1 with candidate := true } (withEntries [remote 7 42 112, ended] idle)
    let s := s.setSelector { s.selector with sequence := 30 }
    after .clear s (fun t =>
      t.port.events == [⟨.onAirChanged, 0, 0, 0, 12⟩, ⟨.cleared, 0, 3, 1, 0⟩] && t.selector.sequence == 31
        && t.tx.queue.map (fun f => f.body.kindCode) == [3, 1]) = true := by decide +kernel

/-- A start with a bad image: an empty area set is cause 4. -/
theorem test_image_without_areas : imageFault (image (header 0x3C 14 0)) = some (4, 0) := by
  have hl := header_length 0x3C 14 0
  simp only [imageFault, image_crc _ hl, ne_eq, not_true_eq_false, if_false]
  rw [image_byte _ 0 (by rw [hl]; decide), image_byte _ 1 (by rw [hl]; decide), image_byte _ 2 (by rw [hl]; decide)]
  decide +kernel

/-- SET_NAME at station 4 after a restart: version 1, and the command is answered ACCEPTED. -/
theorem test_set_name :
    after (.setName spaces) idle (fun t =>
      t.names.pendingName == some ⟨spaces, 1, 12⟩ && t.port.output == [0xA0]) = true := by decide +kernel

/-- With a 2 s tail the entry is freed at the second increase (R15). -/
theorem test_tail :
    let e := { remote 7 42 100 with state := .ending, endCause := some .expired, endingSince := some 30 }
    let s := withEntries [e] (idle.setSettings { cfg with tail := 2 })
    let at2 := s.setClock { s.clock with stationTime := 100, phase := 0, secondCount := 2 }
    let at1 := s.setClock { s.clock with stationTime := 99, phase := 49, secondCount := 1 }
    after (.endingTailExpiry 7 42) at2 (fun t => t.claims.entries == []) = true
    ∧ after (.endingTailExpiry 7 42) at1 (fun t => t.claims.entries == [e]) = true := by decide +kernel

/-! ### Witnesses: states and operands that meet the hypotheses of the statements

One theorem for each statement that has hypotheses, with the statement's name. Where a statement has several clauses, each clause is
met, at the boundary value of its range. -/

/-- `idle` some time after its start, with interval `phase` of second 4 begun. -/
def at4 (phase : Nat) : State :=
  idle.setClock { idle.clock with stationTime := BitVec.ofNat 32 (200 + phase), secondCount := 4, phase := phase }

theorem witness_IdleStepCountsStationTime :
    ((at4 48).pending = [] ∧ nextDue (at4 48) = none ∧ (at4 48).loader.resetHeld = false ∧ (at4 48).clock.phase + 1 < 50)
    ∧ ((at4 49).pending = [] ∧ nextDue (at4 49) = none ∧ (at4 49).loader.resetHeld = false ∧ 50 ≤ (at4 49).clock.phase + 1)
    ∧ (at4 48).reference.state = .locked
    ∧ (let s := (at4 48).setReference { (at4 48).reference with state := .lost }
       let s := s.setCells { s.cells with bitClock := true }
       s.pending = [] ∧ nextDue s = none ∧ s.loader.resetHeld = false ∧ s.reference.state ≠ .locked ∧ s.cells.bitClock = true) := by
  decide +kernel

/-- A part in service: (7, 42) on air, a cue of channel 2 active with the claim 57, a full queue whose head is on the line, an
assembly under way, a record of each kind. -/
def service : State :=
  let s := onAir { remote 7 42 112 with areas := 0x16 } (withEntries [own 57 2] idle)
  let s := s.setCues { s.cues with channels := s.cues.channels.set 2 { channelAtStart with
    state := .active, number := some 57, history := [⟨10, some 40, .refused, none⟩, ⟨90, none, .opened, some 57⟩] } }
  let s := s.setTx { s.tx with queue := fullQueue, driverEnable := true, sending := some ⟨(from7 (.release 40 1)).characters, 2, false⟩ }
  let s := s.setRx { s.rx with line := .busy, state := .assembling, length := some 8, buffer := [2, 7, 0x51], own := true }
  s.setPending [.cellBegin, .clear]

theorem service_steps : ∃ t, step service = .next t := ⟨_, rfl⟩

theorem service_table : TableSound service := by
  have h : service.selector.feedSelect = service.settings.feedOf 7 ∧ service.selector.feedEnable = true := by decide +kernel
  exact ⟨by decide +kernel, by decide +kernel, by decide +kernel, by decide +kernel, by decide +kernel, h, by decide +kernel⟩

theorem witness_EveryStepKeepsTableAndSlotSound : TableSound service ∧ ∃ t, step service = .next t :=
  ⟨service_table, service_steps⟩

theorem witness_EveryStepKeepsTheQueueSound : QueueSound service ∧ ∃ t, step service = .next t := by
  exact ⟨⟨by decide +kernel, by decide +kernel, by decide +kernel, by decide +kernel, by decide +kernel, by decide +kernel⟩,
    service_steps⟩

theorem witness_EveryStepKeepsTheReceiverSound : ReceiverSound service ∧ ∃ t, step service = .next t :=
  have h : 3 ≤ (8 : Byte).toNat ∧ (8 : Byte).toNat ≤ 20 ∧ service.rx.buffer.length < (8 : Byte).toNat + 2 := by decide
  ⟨h, service_steps⟩

theorem witness_EveryStepKeepsHistoriesSound : HistorySound service ∧ ∃ t, step service = .next t := by
  refine ⟨?_, service_steps⟩
  have h : ∀ ch ∈ service.cues.channels.toList, ch.history.length ≤ 8 ∧ (∀ r ∈ ch.history.dropLast, r.isOpen = false)
      ∧ (∀ r ∈ ch.history, r.isOpen = true → ch.state = .active) ∧ (∀ r ∈ ch.history, r.stop.isNone = r.isOpen)
      ∧ ch.number.isSome = (ch.state == .active) ∧ ch.runStart.isSome = (ch.state == .run) := by decide +kernel
  intro ch hc
  obtain ⟨a, b, c, d, e, f⟩ := h ch hc
  exact ⟨a, b, c, d, e, f⟩

/-- `FrameBody.printable` as a test. -/
def nameOk : FrameBody → Bool
  | .name _ t => decide (printableOnly t)
  | _ => true

theorem nameOk_sound {b : FrameBody} (h : nameOk b = true) : b.printable := by
  rintro v t rfl
  exact of_decide_eq_true h

theorem witness_EveryStepKeepsTextsPrintable : TextsSound service ∧ ∃ t, step service = .next t := by
  have queued : ∀ f ∈ service.tx.queue, nameOk f.body = true := by decide +kernel
  have waiting : service.names.pendingName = none := by decide
  have applied : printableOnly service.names.applied.text := by decide +kernel
  have labels : ∀ t ∈ service.names.labels.toList, printableOnly t := by
    have h : service.names.labels.toList = List.replicate 7 spaces := rfl
    intro t ht
    rw [h] at ht
    rw [List.eq_of_mem_replicate ht]
    decide
  have display : printableOnly service.cells.displayText := by decide +kernel
  refine ⟨⟨applied, fun n h => ?_, labels, display, fun f hf => nameOk_sound (queued f hf)⟩, service_steps⟩
  exact nomatch waiting.symm.trans h

theorem witness_EveryStepKeepsRanges : RangesSound service ∧ ∃ t, step service = .next t := by
  have h : ∀ e ∈ service.claims.entries, e.age ≤ 65535 ∧ e.demotions ≤ 3 ∧ e.stagesFired ≤ 4 ∧ e.score ≤ 255
      ∧ e.refreshCount ≤ 255 ∧ e.repeatsLeft = none := by decide +kernel
  have g : ∀ ch ∈ service.cues.channels.toList, ch.runLength ≤ 255 ∧ ch.highCount ≤ 255 ∧ ch.offCount ≤ 64 := by decide +kernel
  have backoff : service.tx.backoff = none := rfl
  have entries : ∀ e ∈ service.claims.entries, EntryRanges e := fun e he =>
    let ⟨a, b, c, d, f, left⟩ := h e he
    ⟨a, b, c, d, f, fun n hn => nomatch left.symm.trans hn⟩
  have channels : ∀ ch ∈ service.cues.channels.toList, ChannelRanges ch := fun ch hc =>
    let ⟨a, b, c⟩ := g ch hc
    ⟨a, b, c⟩
  have backoffs : ∀ n, service.tx.backoff = some n → n ≤ 31 := fun n hn => nomatch backoff.symm.trans hn
  exact ⟨by constructor <;> first | assumption | decide +kernel, service_steps⟩

/-- `service` with the reset pin held, and with a RESTART taken. -/
def heldPart : State := service.setLoader { service.loader with resetHeld := true }
def restarting : State := service.setPort { service.port with restartDue := true }

theorem witness_StartsTakeTheStartValues :
    heldPart.loader.resetHeld = true ∧ (restarting.loader.resetHeld = false ∧ restarting.port.restartDue = true) := ⟨rfl, rfl, rfl⟩

theorem witness_ResetPinHoldsThePart :
    heldPart.loader.resetHeld = true ∧ Instr.clear ≠ .powerOn ∧ Instr.clear ≠ .resetPinAssert ∧ Instr.clear ≠ .resetPinRelease := by
  decide

/-- The CRC of a body, and the one stored behind it. -/
theorem stored_crc (body : List Byte) (h : body.length = 201) (x : Half) :
    imageCrc (body ++ halfBytes x) = crc16 body ∧ imageStoredCrc (body ++ halfBytes x) = x := by
  simp [imageCrc, imageStoredCrc, h, byteAt, List.getD, halfBytes, halfOf_bytes]

theorem loaded_bytes (mark station served : Byte) :
    let l := (loaded (header mark station served) (header_length mark station served)).toList
    imageCrc l = imageStoredCrc l ∧ byteAt l 0 = mark ∧ byteAt l 1 = station ∧ byteAt l 2 = served := by
  have h := header_length mark station served
  refine ⟨image_crc _ h, ?_, ?_, ?_⟩ <;> refine (image_byte _ _ (by rw [h]; decide)).trans ?_ <;> rfl

theorem crc_plus_one (x : Half) : x ≠ x + 1 := by
  intro h
  have := congrArg BitVec.toNat h
  simp [BitVec.toNat_add] at this
  omega

/-- The verdicts of a load: a CRC that differs, and an image with any mark, station and area set, its CRC right. -/
theorem witness_LoadChecksInOrder :
    (State.reset.loading ∧ State.reset.port.events.length < 16 ∧ State.reset.tx.queue = [])
    ∧ (∃ bad : List Byte, bad.length = 203 ∧ imageCrc bad ≠ imageStoredCrc bad)
    ∧ (∀ mark station served : Byte, ∃ image : Vector Byte 203, imageCrc image.toList = imageStoredCrc image.toList
       ∧ byteAt image.toList 0 = mark ∧ byteAt image.toList 1 = station ∧ byteAt image.toList 2 = served)
    ∧ (∃ image : Vector Byte 203, ¬ ImageAccepted image.toList) := by
  refine ⟨by decide, ?_, fun m st sv => ⟨_, loaded_bytes m st sv⟩, _, fun h => h.served (loaded_bytes 0x3C 1 0).2.2.2⟩
  have h := header_length 0x3C 1 0x80
  generalize header 0x3C 1 0x80 = body at h
  refine ⟨body ++ halfBytes (crc16 body + 1), by simp [h, halfBytes], ?_⟩
  rw [(stored_crc body h _).1, (stored_crc body h _).2]
  exact crc_plus_one _

/-- An accepted image of station 31 serving area 8. -/
def accepted : Vector Byte 203 := loaded (header 0x3C 31 0x80) (header_length 0x3C 31 0x80)

theorem accepted_good : ImageAccepted accepted.toList := by
  obtain ⟨crc, mark, station, served⟩ := loaded_bytes 0x3C 31 0x80
  exact ⟨crc, mark, by rw [accepted, station]; decide, by rw [accepted, served]; decide⟩

theorem witness_AcceptedImageIsClamped : State.reset.loading ∧ ImageAccepted accepted.toList := ⟨by decide, accepted_good⟩

theorem witness_AcceptedLoadStartsService :
    State.reset.loading ∧ ImageAccepted accepted.toList ∧ State.reset.tx.queue = [] ∧ State.reset.presence.level = .active :=
  ⟨by decide, accepted_good, rfl, rfl⟩

/-- Of the four channels `atSample` enables channel 2 alone. -/
theorem atSample_only (ch : Channel) : SamplesOnly (atSample ch) 2 := by
  have h : (cfg.sources.set 2 cue7)[(2 : Fin 4).castSucc].areas ≠ 0
      ∧ ∀ d : Fin 4, d ≠ 2 → ((cfg.sources.set 2 cue7)[d.castSucc]).areas = 0 := by decide
  exact ⟨rfl, rfl, h.1, h.2⟩

/-- What the statements on samples ask of channel 2, in the state `ch`, and a sample `v` there. -/
def chan (ch : Channel) : Channel := (atSample ch).cues.channels[(2 : Fin 4)]
def netOf (v : Byte) : Nat := (sampleOf 0 0 v 0 2).toNat - cue7.baseline.toNat

theorem atSample_source (ch : Channel) : (atSample ch).settings.sources[(2 : Fin 4).castSucc] = cue7 := rfl
theorem atSample_channel (ch : Channel) : chan ch = ch := rfl

/-- 50 lies at the threshold and 51 above it. -/
theorem witness_SamplesOfIdleChannels :
    (let s := idle.setClock { idle.clock with sampleDue := true }
     s.running = true ∧ s.clock.sampleDue = true ∧ ∀ d : Fin 4, (s.settings.sources[d.castSucc]).areas = 0)
    ∧ SamplesOnly (atSample channelAtStart) 2 ∧ (chan channelAtStart).state = .idle
    ∧ netOf 50 ≤ cue7.lowT.toNat ∧ cue7.lowT.toNat < netOf 51 ∧ 1 < cue7.nLo :=
  ⟨by decide, atSample_only _, rfl, by decide, by decide, by decide⟩

/-- A run with these counts. -/
def inRun (run high : Nat) : Channel := { channelAtStart with state := .run, runLength := run, highCount := high, runStart := some 1001 }

theorem witness_SamplesOfARun :
    SamplesOnly (atSample (inRun 3 1)) 2 ∧ (chan (inRun 3 1)).state = .run ∧ netOf 50 ≤ cue7.lowT.toNat
    ∧ cue7.lowT.toNat < netOf 51 ∧ min ((chan (inRun 3 1)).runLength + 1) 255 < cue7.nLo
    ∧ (chan (inRun 255 1)).runLength ≤ 255 ∧ (chan (inRun 255 1)).highCount < cue7.nHi ∧ netOf 110 ≤ cue7.highT.toNat :=
  ⟨atSample_only _, rfl, by decide, by decide, by decide, by decide, by decide, by decide⟩

/-- Channels 0 to 3 at one sample: in RUN, ACTIVE, `third` and BLOCKED, all enabled. -/
def fourChannels (third : Channel) : State :=
  let s := idle.setSettings { cfg with sources := Vector.replicate 5 { cue7 with nOff := 3 } }
  (s.setCues { s.cues with channels :=
      #v[inRun 3 1, { channelAtStart with state := .active, number := some 57, offCount := 1 }, third,
         { channelAtStart with state := .blocked, offCount := 2 }] }).setClock { s.clock with stationTime := 1005, sampleDue := true }

/-- Several channels at one sample, each plain, with and without one that leaves IDLE. -/
theorem witness_SamplesOfSeveralChannels :
    ∀ third : Fin 2, let s := fourChannels (if third = 0 then channelAtStart else { channelAtStart with state := .blocked })
      s.running = true ∧ s.clock.sampleDue = true
      ∧ (∀ c : Fin 4, (s.settings.sources[c.castSucc]).areas ≠ 0
          ∧ PlainSample s.settings.sources[c.castSucc] (sampleOf 51 50 111 50 c) s.cues.channels[c])
      ∧ ((∃ c : Fin 4, leavesIdle s.settings.sources[c.castSucc] (sampleOf 51 50 111 50 c) s.cues.channels[c]) ↔ third = 0) := by
  have plain : ∀ (third : Fin 2) (c : Fin 4),
      let s := fourChannels (if third = 0 then channelAtStart else { channelAtStart with state := .blocked })
      PlainSample s.settings.sources[c.castSucc] (sampleOf 51 50 111 50 c) s.cues.channels[c] := by
    intro third c
    match third, c with
    | 0, 0 | 1, 0 => exact ⟨by decide, by decide, by decide⟩
    | 0, 1 | 1, 1 => exact ⟨by decide, by decide⟩
    | 0, 2 => exact ⟨by decide, by decide, by decide⟩
    | 1, 2 => exact (by decide : 1 ≤ 3)
    | 0, 3 | 1, 3 => exact (by decide : 1 ≤ 3)
  have rest : ∀ third : Fin 2, let s := fourChannels (if third = 0 then channelAtStart else { channelAtStart with state := .blocked })
      s.running = true ∧ s.clock.sampleDue = true ∧ (∀ c : Fin 4, (s.settings.sources[c.castSucc]).areas ≠ 0)
      ∧ ((∃ c : Fin 4, leavesIdle s.settings.sources[c.castSucc] (sampleOf 51 50 111 50 c) s.cues.channels[c]) ↔ third = 0) := by
    decide
  intro third
  obtain ⟨running, due, enabled, leaves⟩ := rest third
  exact ⟨running, due, fun c => ⟨enabled c, plain third c⟩, leaves⟩

/-- The same four, in the first and in the last order: 4 samples in RUN, an off count of 2, a run of 1, and IDLE. -/
theorem test_four_channels :
    ∀ last : Bool, after (.cueSample 51 50 111 50 (if last then 23 else 0)) (fourChannels channelAtStart) (fun t =>
      t.cues.channels.toList.map (fun c => (c.state, c.runLength, c.highCount, c.offCount)) ==
        [(.run, 4, 1, 0), (.active, 0, 0, 2), (.run, 1, 1, 0), (.idle, 0, 0, 0)]) = true := by decide +kernel

/-- A sample that validates: 111 as the fifth and second high one; 51, not high, as the fifth behind two high ones; 111 behind a run
whose length has stood at 255; and 111 as the first of a run, at a source with Nlo and Nhi 1. -/
theorem run_validates (ch : Channel) (v : Byte)
    (h : (inRun 4 1, (111 : Byte)) = (ch, v) ∨ (inRun 4 2, (51 : Byte)) = (ch, v) ∨ (inRun 255 1, (111 : Byte)) = (ch, v)) (l : List Entry) :
    Validates (withEntries l (atSample ch)) 2 (sampleOf 0 0 v 0 2) := by
  have v : Validates (atSample ch) 2 (sampleOf 0 0 v 0 2) := by
    rcases h with h | h | h <;> cases h <;>
      exact ⟨by decide, by decide, by decide, by decide, by decide, by decide⟩
  exact ⟨v.state, v.runLength, v.highCount, v.aboveLow, v.long, v.high⟩

/-- `atSample` in IDLE, at a source that one high sample validates. -/
def atOnce (l : List Entry) : State :=
  let s := withEntries l (atSample channelAtStart)
  s.setSettings { s.settings with sources := s.settings.sources.set 2 { cue7 with nLo := 1, nHi := 1 } }

theorem atOnce_only (l : List Entry) : SamplesOnly (atOnce l) 2 := by
  have h : (((cfg.sources.set 2 cue7).set 2 { cue7 with nLo := 1, nHi := 1 } : Vector SourceConfig 5)[(2 : Fin 4).castSucc]).areas ≠ 0
      ∧ ∀ d : Fin 4, d ≠ 2 →
        (((cfg.sources.set 2 cue7).set 2 { cue7 with nLo := 1, nHi := 1 } : Vector SourceConfig 5)[d.castSucc]).areas = 0 := by decide
  exact ⟨rfl, rfl, h.1, h.2⟩

theorem atOnce_validates (l : List Entry) : Validates (atOnce l) 2 (sampleOf 0 0 111 0 2) :=
  ⟨.inl rfl, (by decide : 0 ≤ 255), (by decide : 0 ≤ 255), (by decide : cue7.lowT.toNat < netLevel cue7 111), (by decide : 1 ≤ 1),
    (by decide : 1 ≤ min (0 + 1) 255)⟩

theorem withEntries_only (l : List Entry) (ch : Channel) : SamplesOnly (withEntries l (atSample ch)) 2 :=
  ⟨rfl, rfl, (atSample_only ch).enabled, (atSample_only ch).others⟩

/-- The next number is drawn where no live local entry has it, and the one behind it where one has it. -/
theorem drawn_next {s : State} (free : ∀ e ∈ s.claims.entries, e.isLocal = true → e.state ≠ .ending → e.number ≠ s.claims.nextNumber) :
    NumberDrawn s s.claims.nextNumber :=
  ⟨fun n h => absurd h (by simp), free⟩

theorem drawn_behind {s : State} {e : Entry} (held : e ∈ s.claims.entries) (isLocal : e.isLocal = true) (live : e.state ≠ .ending)
    (number : e.number = s.claims.nextNumber)
    (free : ∀ x ∈ s.claims.entries, x.isLocal = true → x.state ≠ .ending → x.number ≠ s.claims.nextNumber + 1) :
    NumberDrawn s (s.claims.nextNumber + 1) := by
  refine ⟨fun n h => ⟨e, held, isLocal, live, number.trans ?_⟩, free⟩
  bv_omega

/-- A live own entry has the next number 0, and an own entry in ENDING the number 1 behind it, which is drawn. -/
def heldNumbers : List Entry := [own 0 4, { endedAs .released 5 (own 1 4) with repeatsLeft := some 1 }, remote 7 1 112]

theorem heldNumbers_drawn : NumberDrawn (atOnce heldNumbers) 1 :=
  drawn_behind (e := own 0 4) (.head _) rfl (by decide) rfl (by decide)

/-- With the table empty; with a number passed over and an entry in ENDING freed; and with a CLAIM for the number still waiting. -/
theorem witness_ValidatedRunMakesALocalClaim :
    (let s := withEntries [] (atSample (inRun 4 2))
     SamplesOnly s 2 ∧ Validates s 2 (sampleOf 0 0 51 0 2) ∧ distinctClaims s ∧ localityHolds s ∧ NumberDrawn s 0 ∧ PlaceMade s []
     ∧ (∀ f ∈ s.tx.queue, f.isWaitingClaim 0 = false) ∧ s.tx.queue.length < 8)
    ∧ (let s := atOnce heldNumbers
       SamplesOnly s 2 ∧ Validates s 2 (sampleOf 0 0 111 0 2) ∧ distinctClaims s ∧ localityHolds s ∧ NumberDrawn s 1
       ∧ PlaceMade s heldNumbers ∧ ∃ e ∈ heldNumbers, e.key = (s.settings.station, 1) ∧ e.state = .ending)
    ∧ (let f := from7 (.claim 1 .traffic 0x16 0 9)
       f.inTransmission = false ∧ [from7 (.release 1 0), f].filter (Frame.isWaitingClaim 1) = [f]) :=
  ⟨⟨withEntries_only _ _, run_validates _ _ (.inr (.inl rfl)) _, by decide, by decide, drawn_next (by decide), .inl (by decide), by decide,
      by decide⟩,
    ⟨atOnce_only _, atOnce_validates _, by decide, by decide, heldNumbers_drawn, .inl ⟨by decide, rfl⟩, by decide⟩, by decide⟩

/-- Channels 2 and 3 at a source that one high sample validates. -/
def pair (l : List Entry) : State :=
  let s := withEntries l (atSample channelAtStart)
  s.setSettings { s.settings with
    sources := (s.settings.sources.set 2 { cue7 with nLo := 1, nHi := 1 }).set 3 { cue7 with nLo := 1, nHi := 1 } }

/-- Two runs at one sample, behind fourteen entries. -/
theorem witness_TwoRunsAtOneSample :
    let l := (List.range 14).map fun i => remote 9 (BitVec.ofNat 8 (100 + i)) 200
    let s := pair l
    s.running = true ∧ s.clock.sampleDue = true
    ∧ (∀ x : Fin 4, (s.settings.sources[x.castSucc]).areas ≠ 0 ↔ x = 2 ∨ x = 3)
    ∧ Validates s 2 (sampleOf 0 0 111 111 2) ∧ Validates s 3 (sampleOf 0 0 111 111 3) ∧ distinctClaims s ∧ localityHolds s
    ∧ (∀ e ∈ s.claims.entries, e.isLocal = true → e.number ≠ 0 ∧ e.number ≠ 1) ∧ s.claims.entries.length < 15 := by
  refine ⟨rfl, rfl, by decide, ?_, ?_, by decide +kernel, by decide +kernel, by decide +kernel, by decide⟩ <;>
    exact ⟨.inl rfl, (by decide : 0 ≤ 255), (by decide : 0 ≤ 255), (by decide : cue7.lowT.toNat < netLevel cue7 111), (by decide : 1 ≤ 1),
      (by decide : 1 ≤ min (0 + 1) 255)⟩

/-- R72: in one order channel 2 takes the number 0 and channel 3 the number 1, in another the other way round. -/
theorem test_two_runs_at_one_sample :
    ∀ last : Bool, after (.cueSample 0 0 111 111 (if last then 23 else 0)) (pair []) (fun t =>
      (t.cues.channels[2].number, t.cues.channels[3].number) == (if last then (some 1, some 0) else (some 0, some 1))) = true := by
  decide +kernel

/-- R19: the number 0 is passed over, and the entry in ENDING that has the number 1 leaves the table for the new claim. -/
theorem test_number_passed_over :
    after (.cueSample 0 0 111 0 0) (atOnce heldNumbers) (fun t =>
      t.claims.nextNumber == 2 && t.cues.channels[2].number == some 1
        && t.claims.entries.map Entry.key == [(12, 0), (7, 1), (12, 1)]
        && (t.entry (12, 1)).map Entry.repeatsLeft == some none) = true := by decide +kernel

/-- One high sample takes a channel with Nlo and Nhi 1 from IDLE to ACTIVE (R66, R69); in a full table of own entries to BLOCKED. -/
theorem test_one_sample_validates :
    after (.cueSample 0 0 111 0 0) (atOnce []) (fun t =>
      t.cues.channels[2].state == .active && t.cues.channels[2].history == [⟨1005, none, .opened, some 0⟩]) = true
    ∧ after (.cueSample 0 0 111 0 0) (atOnce ((List.range 16).map fun i => own (BitVec.ofNat 8 i) 2)) (fun t =>
      t.cues.channels[2].state == .blocked && t.presence.level == .active
        && t.port.events == [⟨.claimRefused, 1005, 2, 1, 0x16⟩]) = true := by decide +kernel

/-- A full table in which `v` and `w` stand first, the others ON_AIR or WAITING above 60. -/
def fullWith (v w : Entry) : List Entry := v :: w :: (List.range 14).map fun i => remote 9 (BitVec.ofNat 8 (100 + i)) 200

/-- The victim has ended at 5, another at 5 behind it; with none in ENDING it waits at score 60 behind another at 60. -/
theorem endingVictim_of_table :
    let v := endedAs .expired 5 (remote 4 17 60)
    EndingVictim (withEntries (fullWith v (endedAs .expired 5 (remote 4 18 50))) (atSample (inRun 4 1))) v :=
  ⟨by decide, by decide, by decide, by decide, by decide +kernel⟩

theorem waitingVictim_of_table :
    let v := remote 4 17 60
    WaitingVictim (withEntries (fullWith (remote 4 18 60) v) (atSample (inRun 4 1))) v :=
  ⟨by decide, by decide, by decide, by decide, by decide +kernel, by decide +kernel⟩

theorem witness_ValidatedRunInAFullTable :
    (let v := endedAs .expired 5 (remote 4 17 60)
     let s := withEntries (fullWith v (endedAs .expired 5 (remote 4 18 50))) (atSample (inRun 4 1))
     SamplesOnly s 2 ∧ Validates s 2 (sampleOf 0 0 111 0 2) ∧ distinctClaims s ∧ localityHolds s ∧ NumberDrawn s 0
     ∧ PlaceMade s (s.claims.entries.filter fun e => e.key ≠ v.key))
    ∧ (let v := remote 4 17 60
       let s := withEntries (fullWith (remote 4 18 60) v) (atSample (inRun 4 1))
       SamplesOnly s 2 ∧ Validates s 2 (sampleOf 0 0 111 0 2) ∧ distinctClaims s ∧ localityHolds s ∧ NumberDrawn s 0
       ∧ PlaceMade s (s.claims.entries.filter fun e => e.key ≠ v.key)) :=
  ⟨⟨withEntries_only _ _, run_validates _ _ (.inl rfl) _, by decide +kernel, by decide +kernel, drawn_next (by decide +kernel),
      .inr ⟨_, .inl endingVictim_of_table, rfl⟩⟩,
    withEntries_only _ _, run_validates _ _ (.inl rfl) _, by decide +kernel, by decide +kernel, drawn_next (by decide +kernel),
    .inr ⟨_, .inr waitingVictim_of_table, rfl⟩⟩

/-- The eighth record fills the list, and the ninth sets the full mark (R82). -/
theorem test_history_fills :
    let records := fun n => List.replicate n (⟨10, some 40, .released, some 3⟩ : HistoryRecord)
    after (.cueSample 0 0 111 0 0) (atSample { inRun 4 1 with history := records 7 }) (fun t =>
        (t.cues.channels[2].history.length, t.cues.channels[2].full) == (8, false)) = true
    ∧ after (.cueSample 0 0 111 0 0) (atSample { inRun 4 1 with history := records 8 }) (fun t =>
        (t.cues.channels[2].history, t.cues.channels[2].full) == (records 8, true)) = true := by decide +kernel

/-- Sixteen local entries. -/
def sixteen : List Entry := (List.range 16).map fun i => own (BitVec.ofNat 8 i) 2

theorem witness_RefusedRunBlocksTheChannel :
    (let s := withEntries sixteen (atSample (inRun 255 1))
     SamplesOnly s 2 ∧ Validates s 2 (sampleOf 0 0 111 0 2) ∧ s.claims.entries.length = 16
     ∧ (∀ e ∈ s.claims.entries, e.isLocal = true ∨ e.state = .onAir) ∧ (s.cues.channels[(2 : Fin 4)]).state = .run)
    ∧ (let s := atOnce sixteen
       SamplesOnly s 2 ∧ Validates s 2 (sampleOf 0 0 111 0 2) ∧ s.claims.entries.length = 16
       ∧ (∀ e ∈ s.claims.entries, e.isLocal = true ∨ e.state = .onAir) ∧ (s.cues.channels[(2 : Fin 4)]).state = .idle
       ∧ s.tx.queue.length < 8) :=
  ⟨⟨withEntries_only _ _, run_validates _ _ (.inr (.inr rfl)) _, by decide, by decide, rfl⟩,
    atOnce_only _, atOnce_validates _, by decide, by decide, rfl, by decide⟩

/-- Channel 2 ACTIVE with claim 57, or BLOCKED, after `off` samples that were not above low; Noff is 3. -/
def active57 (off : Nat) : Channel :=
  { channelAtStart with state := .active, number := some 57, offCount := off, history := [⟨1001, none, .opened, some 57⟩] }
def blockedFor (off : Nat) : Channel := { channelAtStart with state := .blocked, offCount := off }

theorem witness_SamplesOfActiveAndBlocked :
    (SamplesOnly (atSample (active57 2)) 2 ∧ 1 ≤ cue7.nOff ∧ (chan (active57 2)).state = .active ∧ ¬ netOf 51 ≤ cue7.lowT.toNat)
    ∧ ((chan (blockedFor 1)).state = .blocked ∧ netOf 50 ≤ cue7.lowT.toNat ∧ (chan (blockedFor 1)).offCount + 1 < cue7.nOff)
    ∧ ((chan (blockedFor 2)).state = .blocked ∧ cue7.nOff ≤ (chan (blockedFor 2)).offCount + 1)
    ∧ (let s := withEntries [own 57 2] (atSample (active57 2))
       SamplesOnly s 2 ∧ (s.cues.channels[(2 : Fin 4)]).number = some 57 ∧ cue7.nOff ≤ (s.cues.channels[(2 : Fin 4)]).offCount + 1
       ∧ distinctClaims s ∧ s.entry (s.settings.station, 57) = some (own 57 2) ∧ (own 57 2).isLocal = true
       ∧ (own 57 2).state ≠ .ending ∧ slotFits s (s.settings.station, 57) (own 57 2) ∧ s.tx.queue.length < 8) :=
  ⟨⟨atSample_only _, by decide, rfl, by decide⟩, by decide, by decide,
    ⟨⟨rfl, rfl, by decide, by decide⟩, rfl, by decide, by decide, by decide, rfl, by decide, by decide, by decide⟩⟩

/-- A part whose manual cue has areas, IDLE or ACTIVE with claim 9. -/
def manualPart (m : ManualState) (number : Option Byte) : State :=
  let s := withEntries [own 9 4] (idle.setSettings { cfg with sources := cfg.sources.set 4 cue7 })
  (s.setClaims { s.claims with nextNumber := 10 }).setCues { s.cues with manual := m, manualNumber := number }

/-- `manualPart` in IDLE with these entries, at the time of the samples. -/
def manualAt (l : List Entry) (next : Byte) : State :=
  let s := manualPart .idle none
  (s.setClaims { s.claims with entries := l, nextNumber := next }).setClock { s.clock with stationTime := 1005 }

theorem witness_ManualCueStarts :
    ((manualPart .active (some 9)).openRunning ∧ (manualPart .active (some 9)).cues.manual = .active)
    ∧ (idle.openRunning ∧ (idle.settings.sources[(4 : Fin 5)]).areas = 0)
    ∧ ((manualAt sixteen 0).openRunning ∧ noPlace (manualAt sixteen 0) ∧ (manualAt sixteen 0).tx.queue.length < 8)
    ∧ (let s := manualAt [own 9 3] 10
       s.openRunning ∧ s.cues.manual = .idle ∧ (s.settings.sources[(4 : Fin 5)]).areas ≠ 0 ∧ distinctClaims s ∧ localityHolds s
       ∧ NumberDrawn s 10 ∧ PlaceMade s [own 9 3] ∧ (∀ f ∈ s.tx.queue, f.isWaitingClaim 10 = false) ∧ s.tx.queue.length < 8)
    ∧ (let s := manualAt [own 9 3] 9
       distinctClaims s ∧ localityHolds s ∧ NumberDrawn s 10 ∧ PlaceMade s [own 9 3])
    ∧ (let v := endedAs .expired 5 (remote 4 17 60)
       let s := manualAt (fullWith v (endedAs .expired 5 (remote 4 18 50))) 10
       distinctClaims s ∧ localityHolds s ∧ NumberDrawn s 10 ∧ PlaceMade s (s.claims.entries.filter fun e => e.key ≠ v.key))
    ∧ (let v := remote 4 17 60
       let s := manualAt (fullWith (remote 4 18 60) v) 10
       distinctClaims s ∧ localityHolds s ∧ NumberDrawn s 10 ∧ PlaceMade s (s.claims.entries.filter fun e => e.key ≠ v.key)) := by
  have h := endingVictim_of_table
  have k := waitingVictim_of_table
  refine ⟨by decide, by decide, by decide, ⟨by decide, by decide, by decide, by decide, by decide, drawn_next (by decide),
    .inl (by decide), by decide, by decide⟩, ⟨by decide, by decide, drawn_behind (e := own 9 3) (.head _) rfl (by decide) rfl (by decide),
    .inl (by decide)⟩, ⟨by decide +kernel, by decide +kernel, drawn_next (by decide +kernel), .inr ⟨_, .inl ?_, rfl⟩⟩,
    by decide +kernel, by decide +kernel, drawn_next (by decide +kernel), .inr ⟨_, .inr ?_, rfl⟩⟩
  · exact ⟨h.full, h.held, h.remote, h.ending, h.first⟩
  · exact ⟨k.full, k.held, k.remote, k.waiting, k.noEnding, k.lowest⟩

/-- A manual start in a full table (R17, R78): REFUSED without an event among own entries; else the later of two at score 60 leaves. -/
theorem test_manual_start_in_a_full_table :
    after .manualCueStart (manualAt sixteen 0) (fun t =>
      t.port.output == [0xA3] && t.port.events == [] && t.cues.manual == .idle && t.claims.nextNumber == 0) = true
    ∧ after .manualCueStart (manualAt (fullWith (remote 4 18 60) (remote 4 17 60)) 10) (fun t =>
      t.port.output == [0xA0] && t.entry (4, 17) == none && (t.entry (4, 18)).isSome && t.cues.manualNumber == some 10) = true := by
  decide +kernel

theorem witness_ManualCueStops :
    (idle.openRunning ∧ idle.cues.manual = .idle)
    ∧ (let s := manualPart .active (some 9)
       s.openRunning ∧ s.cues.manual = .active ∧ s.cues.manualNumber = some 9 ∧ distinctClaims s
       ∧ s.entry (s.settings.station, 9) = some (own 9 4) ∧ (own 9 4).isLocal = true ∧ (own 9 4).state ≠ .ending
       ∧ slotFits s (s.settings.station, 9) (own 9 4) ∧ s.tx.queue.length < 8)
    ∧ ((0 : Byte) ≠ 0x01 ∧ (3 : Byte) ≠ 0x02
       ∧ State.reset.loader.resetHeld = false ∧ State.reset.port.restartDue = false ∧ State.reset.loader.runState ≠ .running) := by
  decide

/-- R22, R77: a stop queues the RELEASE of its claim ahead of the PRESENCE of its activity; a stop in IDLE is activity too. -/
theorem test_manual_stop_releases :
    after .manualCueStop (manualPart .active (some 9)) (fun t => t.tx.queue.map Frame.body == [.release 9 0, .presence .active 0x1234]) = true
    ∧ after .manualCueStop (idle.setPresence { idle.presence with level := .quiet2, downshiftTimer := 7 }) (fun t =>
      t.port.output == [0xA2] && t.presence.level == .active && t.presence.downshiftTimer == 0) = true := by decide +kernel

/-- The worked case of R3: 60 held, 200 offered; 128 apart; and an equal number. -/
theorem witness_ClaimNumbersCompareSerially :
    nextLastEnded (some 60) 62 = some 62 ∧ nextLastEnded (some 72) 200 = some 200 ∧ nextLastEnded (some 60) 60 = some 60
    ∧ nextLastEnded none 7 = some 7 ∧ staleNumber 60 60 = true ∧ staleNumber 189 60 = true ∧ staleNumber 188 60 = false
    ∧ staleNumber 61 60 = false := by decide

theorem witness_BestOfASet :
    [remote 7 42 112, remote 9 61 112] ≠ [] ∧ (remote 7 42 112).key ≠ (remote 9 61 112).key
    ∧ precedes (remote 7 42 112) (remote 9 61 112) = true ∧ precedes (remote 7 72 112) (remote 7 200 112) = true
    ∧ olderNumber (remote 7 250 112).number (remote 7 3 112).number = true
    ∧ best [remote 7 3 112, remote 7 250 112, remote 7 60 112] = some (remote 7 250 112) := by decide

theorem witness_WhichNameIsNewer :
    ({ idle.names with pendingName := some ⟨spaces, 18, 9⟩ } : NameStore).pendingName = some ⟨spaces, 18, 9⟩
    ∧ idle.names.pendingName = none ∧ isStation (⟨spaces, 18, 1⟩ : NameRecord).origin = true
    ∧ isStation (⟨spaces, 18, 31⟩ : NameRecord).origin = true := by decide

/-- A part at an increase of the second count whose age step is due, with stage 1 on. -/
def atAge (hold : Nat) (action : OverrunAction) (entries : List Entry) : State :=
  let s := withEntries entries (idle.setSettings { cfg with stages := cfg.stages.set 0 ⟨hold, action⟩ })
  s.setClock { s.clock with stationTime := 9000, secondCount := 180, atSecond := true, ageStepDue := true }

/-- A remote WAITING entry that is no candidate. -/
def bystander (age : Nat) : Entry := { remote 7 42 100 with areas := 0x01, candidate := false, age := age }

/-- With a stage on and not due; with no stage on, in which form no two entries need differ; the timers with a claim waiting, with one
on air and with one that the closing selection puts on air; and an age step already taken. -/
theorem witness_AgeStepAgesEntriesAndCountsTimers :
    (let s := atAge 180 .lapse [bystander 178, { bystander 65535 with number := 43, stagesFired := 1 }]
     s.running = true ∧ s.clock.ageStepDue = true ∧ distinctClaims s ∧ (∀ e ∈ s.claims.entries, stepped s e)
     ∧ ∀ e ∈ s.claims.entries, stagesDue s e = [])
    ∧ (let s := atAge 0 .nothing [remote 7 42 112, { bystander 65535 with number := 43 }]
       s.running = true ∧ s.clock.ageStepDue = true ∧ (∀ i : Fin 4, s.settings.stages[i].hold = 0)
       ∧ ∀ e ∈ s.claims.entries, stagesDue s e = [])
    ∧ (let s := (atAge 180 .notify [bystander 179]).setPresence { idle.presence with downshiftTimer := 10, presenceTimer := 59 }
       s.running = true ∧ s.clock.ageStepDue = true ∧ distinctClaims s ∧ (∀ e ∈ s.claims.entries, endingDue s e = none)
       ∧ s.presence.level.downshiftLimit = some 10 ∧ s.presence.downshiftTimer ≤ 10
       ∧ after .ageStep s (fun t => t.selector == s.selector) = true)
    ∧ (let s := onAir (remote 9 61 112) (atAge 0 .nothing [bystander 3])
       distinctClaims s ∧ after .ageStep s (fun t => t.selector == s.selector) = true)
    ∧ (let s := atAge 0 .nothing [remote 7 42 112]
       distinctClaims s ∧ after .ageStep s (fun t => t.selector != s.selector) = true)
    ∧ QuietLevel.quiet3.downshiftLimit = none ∧ idle.clock.ageStepDue = false := by decide +kernel

/-- An entry of channel 2 whose channel is ACTIVE. -/
def agedCue (action : OverrunAction) : State :=
  let s := atAge 180 action [{ own 57 2 with age := 179 }]
  s.setCues { s.cues with channels := s.cues.channels.set 2 (active57 0) }

/-- An own entry of channel 2 or of the manual source at these stages, its age to become 180. -/
def staged (stages : Vector Stage 4) (e : Entry) : State :=
  let s := agedCue .nothing
  withEntries [{ e with age := 179 }] ((s.setSettings { s.settings with stages := stages }).setCues
    { s.cues with manual := .active, manualNumber := some e.number })

/-- What the statement asks of the entry at the age step. -/
abbrev steps (s : State) (e : Entry) : Prop :=
  s.running = true ∧ s.clock.ageStepDue = true ∧ s.claims.entries = [e] ∧ s.selector.onAir = none ∧ e.state = .waiting
  ∧ e.candidate = false ∧ e.madeSecond ≠ s.clock.secondCount ∧ e.demotions ≤ 3 ∧ s.tx.queue.length < 7

/-- The numbers of the stages that fire on it. -/
def firedOn (s : State) (e : Entry) : List Nat := (stagesDue s e).map Prod.fst

/-- The hold of 180 s is reached at age 180, by each of the actions, on a remote and on a local entry; several stages at once, up to
one that ends the entry, with one that is off between them and one whose hold is not reached; and stages already fired. -/
theorem witness_AnOverrunStageActs :
    (∀ action : OverrunAction,
      steps (atAge 180 action [bystander 179]) (bystander 179) ∧ (bystander 179).isLocal = false
      ∧ firedOn (atAge 180 action [bystander 179]) (bystander 179) = [1] ∧ isStation (bystander 179).origin = true
      ∧ steps (agedCue action) { own 57 2 with age := 179 } ∧ (own 57 2).isLocal = true
      ∧ firedOn (agedCue action) { own 57 2 with age := 179 } = [1] ∧ (own 57 2).source = some (2 : Fin 4).castSucc
      ∧ ((agedCue action).cues.channels[(2 : Fin 4)]).state = .active)
    ∧ (let e := { own 57 4 with age := 179 }; let s := staged #v[⟨180, .demote⟩, ⟨0, .lapse⟩, ⟨180, .demote⟩, ⟨181, .notify⟩] e
       steps s e ∧ firedOn s e = [1, 3] ∧ firedOn s { e with stagesFired := 1 } = [3] ∧ firedOn s { e with age := 178 } = []
       ∧ e.source = some 4)
    ∧ (let e := bystander 179; let s := staged #v[⟨180, .demote⟩, ⟨180, .nothing⟩, ⟨180, .localEnd⟩, ⟨180, .notify⟩] e
       steps s e ∧ firedOn s e = [1, 2, 3])
    ∧ (let e := bystander 65534; let s := atAge 65535 .notify [e]
       steps s e ∧ firedOn s e = [1] ∧ firedOn s { e with age := 65535, stagesFired := 1 } = []) := by
  refine ⟨fun action => by cases action <;> decide, by decide, by decide, by decide⟩

/-- An announcement on air at age 179 with (9, 61) waiting, and stage 1 with this action. -/
def agedOnAir (action : OverrunAction) (guard : Option Nat) (l : List Entry) : State :=
  let s := onAir { remote 7 42 112 with age := 179 } (atAge 180 action l)
  s.setSelector { s.selector with guard := guard }

/-- The second clause: each action on an ON_AIR entry, with and without a candidate, the guard stopped and running, and both verdicts of
the preemption test; and on a WAITING candidate behind one on air. -/
theorem witness_AStageActsInAnyTable :
    (∀ action : OverrunAction, let e := { remote 7 42 112 with age := 179, state := .onAir }
      let s := agedOnAir action none [{ remote 9 61 112 with age := 100 }]
      s.running = true ∧ s.clock.ageStepDue = true ∧ distinctClaims s ∧ slotAgrees s ∧ e ∈ s.claims.entries ∧ stepped s e
      ∧ e.demotions ≤ 3 ∧ (∀ x ∈ s.claims.entries, x ≠ e → stepped s x → stagesDue s x = []) ∧ firedOn s e = [1]
      ∧ (bestAged s).map Entry.key = some (9, 61) ∧ s.settings.guardTime ≠ 0 ∧ s.tx.queue.length < 7
      ∧ ((∃ x, bestAged s = some x ∧ displaces s x (supervisedBy s e)) ↔ action = .demote))
    ∧ bestAged (agedOnAir .lapse none []) = none
    ∧ (agedOnAir .demote (some 182) [remote 9 61 112]).selector.guard ≠ none
    ∧ (let e := { remote 9 61 112 with age := 179 }
       let s := onAir (remote 7 42 112) (atAge 180 .localEnd [e])
       distinctClaims s ∧ slotAgrees s ∧ e ∈ s.claims.entries ∧ stepped s e ∧ firedOn s e = [1] ∧ e.candidate = true
       ∧ ∀ x ∈ s.claims.entries, x ≠ e → stepped s x → stagesDue s x = []) := by
  refine ⟨fun action => ?_, by decide, by decide, by decide⟩
  cases action <;>
    refine ⟨rfl, rfl, by decide, by decide, by decide, by decide, by decide, by decide, by decide, by decide, by decide, by decide, ?_⟩
  all_goals
    constructor
    · rintro ⟨x, h, d⟩
      cases h
      revert d
      decide
    · first
        | exact fun _ => ⟨_, rfl, by decide⟩
        | exact nofun

/-- R93, R51: an ON_AIR claim ended by its stage leaves the slot to the waiting one in one change, and the timers at 0. -/
theorem test_stage_empties_the_slot :
    after .ageStep (agedOnAir .localEnd none [remote 9 61 112]) (fun t =>
      t.selector.onAir == some (9, 61) && t.selector.sequence == 18 && t.presence.presenceTimer == 0
        && t.port.events == [⟨.overrun, 9000, 7, 42, 1⟩, ⟨.onAirChanged, 9000, 9, 61, 7⟩]) = true := by decide +kernel

/-- R90: DEMOTE twice leaves two demotions and both events; DEMOTE before LAPSE freezes the lowered score, and the stage behind does not
fire. The weight 96 less penalties of 40, as `cfg` has them, with no area shared and an age bonus of 22 at 180. -/
theorem test_stages_in_one_step :
    (let e := bystander 179
     after .ageStep (staged #v[⟨180, .demote⟩, ⟨180, .demote⟩, ⟨0, .nothing⟩, ⟨0, .nothing⟩] e) (fun t =>
       t.claims.entries.map (fun x => (x.demotions, x.score, x.stagesFired)) == [(2, 96 + 22 - 80, 2)]
         && t.port.events.map EventRecord.third == [1, 2])) = true
    ∧ (let e := bystander 179
       after .ageStep (staged #v[⟨180, .demote⟩, ⟨180, .lapse⟩, ⟨180, .notify⟩, ⟨0, .nothing⟩] e) (fun t =>
         t.claims.entries.map (fun x => (x.state, x.score, x.stagesFired)) == [(.ending, 96 + 22 - 40, 2)]
           && t.port.events.map EventRecord.kind == [.overrun, .overrun, .lapseSent])) = true := by decide +kernel

/-- `s` at the given increase of station time, interval `phase` of its second having begun. -/
def atTime (time : Time) (phase second : Nat) (s : State) : State :=
  s.setClock { s.clock with stationTime := time, phase := phase, secondCount := second }

/-- The lifetime is 7 s and the tail 10 s. Refreshed or ended at 100, just after its second's increase: the seventh increase after it
comes at 450, the tenth at 600. -/
theorem witness_LifetimeAndTailExpire :
    (let e := { remote 7 42 112 with state := .onAir, lastRefresh := some 101 }
     let base := withEntries [] (onAir { remote 7 42 112 with lastRefresh := some 101 } idle)
     let s := (base.setClaims { base.claims with entries := [e] })
     s.running = true ∧ distinctClaims s ∧ s.entry (7, 42) = some e ∧ e.isLocal = false ∧ e.state ≠ .ending
     ∧ e.lastRefresh = some 101 ∧ isStation 7 = true ∧ s.selector.onAir = some (7, 42)
     ∧ s.settings.lifetime ≤ (atTime 450 0 9 s).clock.increasesSince 101
     ∧ (atTime 449 49 8 s).clock.increasesSince 101 < s.settings.lifetime)
    ∧ (let e := { remote 7 42 112 with state := .ending, endCause := some .lapsed, endingSince := some 101 }
       let s := withEntries [e] idle
       s.running = true ∧ s.entry (7, 42) = some e ∧ e.state = .ending
       ∧ s.settings.tail ≤ (atTime 600 0 12 s).clock.increasesSince 101
       ∧ (atTime 599 49 11 s).clock.increasesSince 101 < s.settings.tail) := by decide

/-- A local claim 57 whose refresh falls due at second 2, and the same claim in ENDING. -/
def refreshing (second : Nat) (q : List Frame) : State :=
  let s := withEntries [own 57 2] (atTime (BitVec.ofNat 32 (50 * second)) 0 second idle)
  s.setTx { s.tx with queue := q }
def releasing (left : Nat) (time : Time) (phase : Nat) : State :=
  withEntries [{ own 57 2 with state := .ending, endCause := some .released, endingSince := some 101, repeatsLeft := some left }]
    (atTime time phase 3 idle)

theorem witness_RefreshesAndReleaseRepeats :
    (let s := refreshing 2 [{ from7 (.claim 57 .traffic 1 0 0) with origin := 12 }]
     s.running = true ∧ distinctClaims s ∧ s.entry (s.settings.station, 57) = some (own 57 2) ∧ (own 57 2).isLocal = true
     ∧ (own 57 2).state ≠ .ending ∧ (own 57 2).number = 57 ∧ (own 57 2).nextRefresh ≤ s.clock.secondCount
     ∧ ∃ f ∈ s.tx.queue, f.isWaitingClaim 57 = true)
    ∧ ((∀ f ∈ (refreshing 2 []).tx.queue, f.isWaitingClaim 57 = false) ∧ (refreshing 2 []).tx.queue.length < 8)
    ∧ ((own 57 2).nextRefresh = (refreshing 1 []).clock.secondCount + 1)
    ∧ (∀ left : Fin 3, ∃ e, (releasing left.val 151 1).entry ((releasing left.val 151 1).settings.station, 57) = some e
       ∧ e.isLocal = true ∧ e.state = .ending ∧ e.repeatsLeft = some left.val ∧ e.endingSince = some 101)
    ∧ 3 - 2 ≤ (releasing 2 150 0).clock.increasesSince 101 ∧ 3 - 1 ≤ (releasing 1 200 0).clock.increasesSince 101 := by
  refine ⟨by decide, by decide, by decide, fun left => ⟨_, rfl, rfl, rfl, rfl, rfl⟩, by decide, by decide⟩

/-- The guard expires at second 201 with these claims. -/
def guarded (s : State) : State := atTime 10050 0 201 (s.setSelector { s.selector with guard := some 201 })

theorem witness_GuardExpiryFillsOrPreempts :
    (let s := guarded (withEntries [remote 7 42 112, remote 9 61 120] idle)
     s.running = true ∧ s.selector.guard = some 201 ∧ 201 ≤ s.clock.secondCount ∧ s.selector.onAir = none
     ∧ best (s.claims.entries.filter fun e => e.state == .waiting && e.candidate) = some (remote 9 61 120)
     ∧ s.port.events.length < 15 ∧ s.tx.queue.length < 8)
    ∧ (∀ score : Fin 2, let x := remote 9 61 (136 + score.val); let y := { remote 7 42 112 with state := .onAir }
       let s := guarded (onAir (remote 7 42 112) (withEntries [x] idle))
       s.running = true ∧ distinctClaims s ∧ s.selector.onAir = some (7, 42) ∧ s.entry (7, 42) = some y ∧ y.state = .onAir
       ∧ best (s.claims.entries.filter fun e => e.state == .waiting && e.candidate) = some x
       ∧ (min (y.score + s.settings.margin) 255 < x.score ↔ score = 1))
    ∧ (let s := atTime 10049 49 200 (guarded (onAir (remote 7 42 112) idle))
       s.selector.guard = some 201 ∧ s.selector.onAir = some (7, 42) ∧ s.clock.secondCount < 201) := by
  decide

theorem witness_FramesPassTheChecksUnchanged :
    isStation (from7 (.lapse 12 57)).origin = true ∧ (from7 (.lapse 12 57)).origin ≠ 12 ∧ isStation 1 = true ∧ isStation 31 = true
    ∧ idle.tx.sending = none ∧ service.tx.sending.isSome = true ∧ idle.running = true := by
  decide

theorem witness_AWholeFrameIsDispatched :
    idle.running = true ∧ idle.rx.state = .ready ∧ isStation (from7 (.name 1 spaces)).origin = true
    ∧ (from7 (.name 1 spaces)).origin ≠ idle.settings.station := by decide

/-- A receiver in an assembly. -/
def assembling (length : Option Byte) (buffer : List Byte) : State :=
  idle.setRx { idle.rx with line := .busy, state := .assembling, length := length, buffer := buffer }

theorem witness_CharactersMoveTheReceiver :
    (idle.running = true ∧ idle.rx.state = .ready ∧ (0xC3 : Byte) ≠ 0xC2)
    ∧ (let s := idle.setRx { idle.rx with state := .waitIdle }
       s.running = true ∧ s.rx.state = .waitIdle)
    ∧ ((assembling none []).running = true ∧ (assembling none []).rx.state = .assembling ∧ (assembling none []).rx.length = none
       ∧ (2 : Byte).toNat < 3 ∧ 20 < (21 : Byte).toNat ∧ 3 ≤ (3 : Byte).toNat ∧ (20 : Byte).toNat ≤ 20)
    ∧ (let s := assembling (some 5) [3, 7, 0x51, 42, 0]
       s.running = true ∧ s.rx.state = .assembling ∧ s.rx.length = some 5 ∧ s.rx.buffer.length + 1 < (5 : Byte).toNat + 2) := by
  decide

/-- An assembly whose last character `c` makes its CRC right: kind, origin, mark and payload as given. -/
def lastDue (length : Byte) (body : List Byte) : State :=
  assembling (some length) (body ++ [hiByte (crc16 (length :: body))])
def lastChar (length : Byte) (body : List Byte) : Byte := loByte (crc16 (length :: body))

/-- The checks of R104 on an assembly that is complete with `c`: its CRC, its kind's length, and its kind and origin. -/
def crcGood (s : State) (l c : Byte) : Bool :=
  let b := s.rx.buffer ++ [c]
  s.running && s.rx.state == .assembling && s.rx.length == some l && s.rx.buffer.length + 1 == l.toNat + 2
    && crc16 (l :: b.take l.toNat) == halfOf (byteAt b l.toNat) (byteAt b (l.toNat + 1))

theorem witness_DiscardedAssembliesAreCounted :
    (let body : List Byte := [3, 7, 0x51, 42, 0]
     crcGood (lastDue 5 body) 5 (lastChar 5 body) = true ∧ crcGood (lastDue 5 body) 5 (lastChar 5 body + 1) = false)
    ∧ (crcGood (lastDue 3 [0, 7, 0x51]) 3 (lastChar 3 [0, 7, 0x51]) = true
       ∧ crcGood (lastDue 3 [6, 7, 0x51]) 3 (lastChar 3 [6, 7, 0x51]) = true ∧ 5 < (6 : Byte).toNat)
    ∧ (crcGood (lastDue 4 [3, 7, 0x51, 42]) 4 (lastChar 4 [3, 7, 0x51, 42]) = true ∧ lengthOfKind 3 = some 5)
    ∧ (crcGood (lastDue 5 [3, 0, 0x51, 42, 0]) 5 (lastChar 5 [3, 0, 0x51, 42, 0]) = true
       ∧ crcGood (lastDue 5 [3, 32, 0x51, 42, 0]) 5 (lastChar 5 [3, 32, 0x51, 42, 0]) = true)
    ∧ (let f : Frame := ⟨12, 0x51, .release 42 0, false, 1⟩
       let s := assembling (some f.lengthByte) ((f.characters.drop 2).dropLast)
       s.running = true ∧ s.rx.buffer ++ [lastOf f] = f.characters.drop 2 ∧ s.rx.framing = false ∧ s.rx.own = false
       ∧ f.origin = s.settings.station ∧ isStation f.origin = true ∧ s.port.events.length < 16 ∧ s.rx.lastDuplicate = none
       ∧ 60 ≤ (62 : Nat) - 2 ∧ ¬ 60 ≤ (61 : Nat) - 2) := by decide +kernel

/-! #### Frames of station 7 -/

/-- Station 7's frame is completed in `before f s`, and its sender is known there. -/
theorem before_completes (b : FrameBody) (s : State) (running : s.running = true) (clean : s.rx.framing = false)
    (foreign : s.rx.own = false) (peer : (7 : Byte) ≠ s.settings.station) :
    Completes (before (from7 b) s) (from7 b) (lastOf (from7 b)) ∧ knownSender (before (from7 b) s) (from7 b) := by
  have stored : ∀ l : List Byte, 2 < l.length → (l.drop 2).dropLast ++ [l.getLastD 0] = l.drop 2 := by
    intro l h
    have ne : l.drop 2 ≠ [] := by simp; omega
    have e : l.getLastD 0 = (l.drop 2).getLast ne := by
      cases l with
      | nil => simp at h
      | cons a t => rw [List.getLast_drop, List.getLastD_eq_getLast?, List.getLast?_eq_some_getLast, Option.getD_some]
    rw [e, List.dropLast_append_getLast]
  refine ⟨⟨running, rfl, rfl, stored _ (by simp [Frame.characters, Frame.covered]), clean, foreign, rfl, peer⟩, ?_⟩
  constructor <;> simp [before, from7, State.peer, isStation, State.setPeers, State.setRx]

/-- What is received of a frame of station 7 with this kind and payload, up to its last character. -/
def rawCrc (kind : Byte) (payload : List Byte) : Half := crc16 (BitVec.ofNat 8 (3 + payload.length) :: kind :: 7 :: 0x51 :: payload)
def beforeRaw (kind : Byte) (payload : List Byte) (s : State) : State :=
  let heard := s.setPeers (s.peers.setIfInBounds 6 { peerAtStart with state := .present, mark := some 0x51, deadline := some 150 })
  heard.setRx { s.rx with
    state := .assembling, length := some (BitVec.ofNat 8 (3 + payload.length))
    buffer := kind :: 7 :: 0x51 :: payload ++ [hiByte (rawCrc kind payload)] }

theorem raw_completes (kind : Byte) (payload : List Byte) :
    CompletesRaw (beforeRaw kind payload idle) kind 7 0x51 payload (loByte (rawCrc kind payload)) where
  running := rfl
  assembling := rfl
  length := rfl
  stored := by simp [beforeRaw, rawCrc, halfBytes, State.setRx]
  clean := rfl
  foreign := rfl
  sender := rfl
  peer := (by decide : (7 : Byte) ≠ 12)
  present := by simp [beforeRaw, State.peer, isStation, State.setPeers, State.setRx]
  known := by simp [beforeRaw, State.peer, isStation, State.setPeers, State.setRx]

/-- Class 4, label 8, repeat index 3, claim origins 0 and 32, and level code 4 are rejected. -/
theorem witness_RejectedPayloads :
    (∀ b : Bool, CompletesRaw (beforeRaw 2 [42, if b then 4 else 3, 0x16, if b then 7 else 8, 0] idle) 2 7 0x51
        [42, if b then 4 else 3, 0x16, if b then 7 else 8, 0] (loByte (rawCrc 2 [42, if b then 4 else 3, 0x16, if b then 7 else 8, 0])))
    ∧ CompletesRaw (beforeRaw 3 [42, 3] idle) 3 7 0x51 [42, 3] (loByte (rawCrc 3 [42, 3]))
    ∧ (∀ o : Byte, CompletesRaw (beforeRaw 4 [o, 42] idle) 4 7 0x51 [o, 42] (loByte (rawCrc 4 [o, 42])))
    ∧ CompletesRaw (beforeRaw 1 [4, 0x12, 0x34] idle) 1 7 0x51 [4, 0x12, 0x34] (loByte (rawCrc 1 [4, 0x12, 0x34]))
    ∧ 3 < (4 : Byte).toNat ∧ 7 < (8 : Byte).toNat ∧ 2 < (3 : Byte).toNat ∧ isStation 0 = false ∧ isStation 32 = false :=
  ⟨fun _ => raw_completes _ _, raw_completes _ _, fun _ => raw_completes _ _, raw_completes _ _, by decide⟩

theorem witness_ClaimFrameOfAKnownClaim :
    (let b : FrameBody := .claim 42 .alert 0x16 7 255; let e := remote 7 42 112
     let s := before (from7 b) (withEntries [e] idle)
     Completes s (from7 b) (lastOf (from7 b)) ∧ knownSender s (from7 b) ∧ s.entry (7, 42) = some e ∧ e.state ≠ .ending
     ∧ s.port.events.length < 16)
    ∧ (let b : FrameBody := .claim 42 .traffic 0x16 0 3
       let e := { remote 7 42 112 with state := .ending, endCause := some .released, endingSince := some 0 }
       let s := before (from7 b) (withEntries [e] idle)
       Completes s (from7 b) (lastOf (from7 b)) ∧ knownSender s (from7 b) ∧ s.entry (7, 42) = some e ∧ e.state = .ending
       ∧ e.endCause ≠ some .restarted)
    ∧ (let b : FrameBody := .claim 42 .traffic 0x0B 0 0
       let s := before (from7 b) idle
       Completes s (from7 b) (lastOf (from7 b)) ∧ knownSender s (from7 b) ∧ countsAsNone s (7, 42)
       ∧ (s.peer 7).lastEnded = none ∧ (0x0B : Byte) &&& s.settings.served = 0)
    ∧ (let b : FrameBody := .claim 42 .traffic 0x16 0 0
       let s := before (from7 b) idle
       let s := s.setPeers (s.peers.setIfInBounds 6 { s.peer 7 with lastEnded := some 42 })
       Completes s (from7 b) (lastOf (from7 b)) ∧ knownSender s (from7 b) ∧ countsAsNone s (7, 42)
       ∧ (s.peer 7).lastEnded = some 42) := by
  refine ⟨?_, ?_, ?_, ?_⟩
  · exact ⟨(before_completes _ _ rfl rfl rfl (by decide)).1, (before_completes _ _ rfl rfl rfl (by decide)).2, by decide, by decide,
      by decide⟩
  · exact ⟨(before_completes _ _ rfl rfl rfl (by decide)).1, (before_completes _ _ rfl rfl rfl (by decide)).2, by decide, by decide,
      by decide⟩
  · exact ⟨(before_completes _ _ rfl rfl rfl (by decide)).1, (before_completes _ _ rfl rfl rfl (by decide)).2, by decide, by decide,
      by decide⟩
  · obtain ⟨a, b, c, d, e, f, g, h⟩ := (before_completes (.claim 42 .traffic 0x16 0 0) idle rfl rfl rfl (by decide)).1
    exact ⟨⟨a, b, c, d, e, f, g, h⟩, by decide, by decide, by decide⟩

/-- A claim of station 7's previous start, in ENDING with cause RESTARTED. -/
def restarted : Entry := endedAs .restarted 5 (remote 7 42 112)

/-- In an empty table, and in a full one whose last entry is such a claim. -/
theorem witness_ClaimFrameMakesAnEntry :
    (let b : FrameBody := .claim 42 .traffic 0x16 0 0
     let s := before (from7 b) idle
     Completes s (from7 b) (lastOf (from7 b)) ∧ knownSender s (from7 b) ∧ countsAsNone s (7, 42) ∧ (s.peer 7).lastEnded = none
     ∧ (0x16 : Byte) &&& s.settings.served ≠ 0 ∧ s.claims.entries.length < 16 ∧ distinctClaims s ∧ s.selector.onAir = none
     ∧ ∀ x ∈ s.claims.entries, x.candidate = false)
    ∧ (let b : FrameBody := .claim 42 .traffic 0x16 0 0
       let s := before (from7 b) (withEntries (sixteen.take 15 ++ [restarted]) idle)
       Completes s (from7 b) (lastOf (from7 b)) ∧ knownSender s (from7 b) ∧ s.entry (7, 42) = some restarted ∧ countsAsNone s (7, 42)
       ∧ (s.peer 7).lastEnded = none ∧ s.claims.entries.length = 16
       ∧ (s.claims.entries.filter fun e => e.key ≠ (7, 42)).length < 16 ∧ distinctClaims s ∧ s.selector.onAir = none
       ∧ ∀ x ∈ s.claims.entries.filter (fun e => e.key ≠ (7, 42)), x.candidate = false) := by
  refine ⟨⟨(before_completes _ _ rfl rfl rfl (by decide)).1, (before_completes _ _ rfl rfl rfl (by decide)).2, by decide, by decide, by decide,
    by decide, by decide, by decide, by decide⟩, ?_⟩
  exact ⟨(before_completes _ _ rfl rfl rfl (by decide)).1, (before_completes _ _ rfl rfl rfl (by decide)).2, by decide +kernel⟩

/-- R7, R10: the RESTARTED claim is freed and the new one takes its place in the full table; a RELEASE for it names no claim that counts
(R11), and the entry stands. -/
theorem test_restarted_entry_makes_room :
    (let b : FrameBody := .claim 42 .traffic 0x16 0 0
     after (.claimFrame (lastOf (from7 b))) (before (from7 b) (withEntries (restarted :: sixteen.take 15) idle)) (fun t =>
       t.claims.entries.length == 16 && (t.claims.entries.getLast?.map Entry.key) == some (7, 42)
         && t.selector.onAir == some (7, 42))) = true
    ∧ (let b : FrameBody := .release 42 0
       after (.releaseFrame (lastOf (from7 b))) (before (from7 b) (withEntries [restarted] idle)) (fun t =>
         t.claims.entries == [restarted] && (t.peer 7).lastEnded == some 42)) = true := by decide +kernel

/-- Sixteen live entries, (4, 17) of score `low` the lowest remote one that waits. The newcomer of the test scores 112. -/
def fullOf (low : Nat) : State :=
  withEntries (remote 4 17 low :: ((List.range 15).map fun i => remote 9 (BitVec.ofNat 8 (100 + i)) 200)) idle

/-- What the four clauses ask of the table: the lowest score at 111 and at 112, an entry of the sender's own origin in ENDING, and
only own entries. -/
theorem witness_FullTableWeighsTheNewcomer :
    let b : FrameBody := .claim 42 .traffic 0x16 0 0
    let met := fun (s : State) => Completes s (from7 b) (lastOf (from7 b)) ∧ knownSender s (from7 b) ∧ s.entry (7, 42) = none
      ∧ (s.peer 7).lastEnded = none ∧ (0x16 : Byte) &&& s.settings.served ≠ 0 ∧ s.claims.entries.length = 16 ∧ distinctClaims s
    (∀ more : Fin 2, let v := remote 4 17 (111 + more.val); let s := before (from7 b) (fullOf (111 + more.val))
      met s ∧ WaitingVictim s v
      ∧ (v.score < s.settings.score .traffic (sharedAreas 0x16 s.settings.served) 0 false 0 ↔ more = 0))
    ∧ (let v := endedAs .released 5 (remote 7 41 255)
       let s := before (from7 b) (withEntries (fullWith v (endedAs .expired 5 (remote 4 18 50))) idle)
       met s ∧ EndingVictim s v)
    ∧ (let s := before (from7 b) (withEntries sixteen idle)
       met s ∧ ∀ e ∈ s.claims.entries, e.isLocal = true ∨ e.state = .onAir) := by
  refine ⟨fun more => ⟨?_, ?_⟩, ⟨?_, ?_⟩, ?_⟩
  · have own : (7 : Byte) ≠ (fullOf (111 + more.val)).settings.station := (by decide : (7 : Byte) ≠ 12)
    refine ⟨(before_completes _ _ rfl rfl rfl own).1, (before_completes _ _ rfl rfl rfl own).2, ?_⟩
    clear own
    revert more
    decide +kernel
  · have h : WaitingVictim (fullOf (111 + more.val)) (remote 4 17 (111 + more.val)) := by
      revert more
      exact fun more => ⟨by revert more; decide +kernel, by revert more; decide +kernel, rfl, rfl, by revert more; decide +kernel,
        by revert more; decide +kernel⟩
    exact ⟨⟨h.full, h.held, h.remote, h.waiting, h.noEnding, h.lowest⟩, by clear h; revert more; decide +kernel⟩
  · exact ⟨(before_completes _ _ rfl rfl rfl (by decide)).1, (before_completes _ _ rfl rfl rfl (by decide)).2, by decide +kernel⟩
  · exact ⟨by decide +kernel, by decide +kernel, rfl, rfl, by decide +kernel⟩
  · exact ⟨⟨(before_completes _ _ rfl rfl rfl (by decide)).1, (before_completes _ _ rfl rfl rfl (by decide)).2, by decide +kernel⟩,
      by decide +kernel⟩

theorem witness_ReleaseFrameEndsTheEntry :
    (let b : FrameBody := .release 42 2; let e := remote 7 42 112
     let s := before (from7 b) (withEntries [e] idle)
     Completes s (from7 b) (lastOf (from7 b)) ∧ knownSender s (from7 b) ∧ distinctClaims s ∧ s.entry (7, 42) = some e
     ∧ e.isLocal = false ∧ e.state ≠ .ending ∧ slotFits s (7, 42) e)
    ∧ (let b : FrameBody := .release 42 0
       let e := { remote 7 42 112 with state := .ending, endCause := some .expired, endingSince := some 0 }
       let s := before (from7 b) (withEntries [e] idle)
       Completes s (from7 b) (lastOf (from7 b)) ∧ knownSender s (from7 b) ∧ distinctClaims s ∧ s.entry (7, 42) = some e
       ∧ e.state = .ending ∧ e.endCause ≠ some .restarted)
    ∧ (let b : FrameBody := .release 42 1
       let s := before (from7 b) idle
       Completes s (from7 b) (lastOf (from7 b)) ∧ knownSender s (from7 b) ∧ distinctClaims s ∧ countsAsNone s (7, 42)) := by
  refine ⟨?_, ?_, ?_⟩ <;>
    exact ⟨(before_completes _ _ rfl rfl rfl (by decide)).1, (before_completes _ _ rfl rfl rfl (by decide)).2, by decide⟩

theorem witness_LapseFrameEndsTheEntry :
    (let b : FrameBody := .lapse 9 61; let e := { remote 9 61 112 with candidate := false }
     let s := before (from7 b) (withEntries [e] idle)
     Completes s (from7 b) (lastOf (from7 b)) ∧ knownSender s (from7 b) ∧ isStation 9 = true ∧ distinctClaims s
     ∧ s.entry (9, 61) = some e ∧ e.isLocal = false ∧ e.state = .waiting ∧ e.candidate = false ∧ s.selector.onAir = none
     ∧ (∀ x ∈ s.claims.entries, x.candidate = false) ∧ s.port.events.length < 15 ∧ s.tx.queue.length < 8)
    ∧ (let b : FrameBody := .lapse 31 61
       let s := before (from7 b) idle
       Completes s (from7 b) (lastOf (from7 b)) ∧ knownSender s (from7 b) ∧ isStation 31 = true ∧ distinctClaims s
       ∧ (31 : Byte) ≠ s.settings.station ∧ countsAsNone s (31, 61))
    ∧ (let b : FrameBody := .lapse 12 61
       let s := before (from7 b) idle
       Completes s (from7 b) (lastOf (from7 b)) ∧ knownSender s (from7 b) ∧ isStation 12 = true ∧ distinctClaims s
       ∧ (12 : Byte) = s.settings.station ∧ countsAsNone s (12, 61))
    ∧ (let b : FrameBody := .lapse 9 61; let e := { remote 9 61 112 with state := .onAir }
       let s := before (from7 b) (onAir (remote 9 61 112) idle)
       Completes s (from7 b) (lastOf (from7 b)) ∧ knownSender s (from7 b) ∧ isStation 9 = true ∧ distinctClaims s
       ∧ s.entry (9, 61) = some e ∧ e.isLocal = false ∧ e.state ≠ .ending ∧ slotFits s (9, 61) e)
    ∧ (let b : FrameBody := .lapse 12 57; let e := own 57 2
       let s := before (from7 b) (withEntries [e] (atSample (active57 0)))
       Completes s (from7 b) (lastOf (from7 b)) ∧ knownSender s (from7 b) ∧ isStation 12 = true ∧ distinctClaims s
       ∧ s.entry (12, 57) = some e ∧ e.isLocal = true ∧ (12 : Byte) = s.settings.station ∧ e.state ≠ .ending
       ∧ slotFits s (12, 57) e ∧ e.source = some (2 : Fin 4).castSucc ∧ s.cues.channels[(2 : Fin 4)].state = .active
       ∧ s.tx.queue.length < 8)
    ∧ (let b : FrameBody := .lapse 12 9; let e := own 9 4
       let s := before (from7 b) (manualPart .active (some 9))
       Completes s (from7 b) (lastOf (from7 b)) ∧ knownSender s (from7 b) ∧ isStation 12 = true ∧ distinctClaims s
       ∧ s.entry (12, 9) = some e ∧ e.isLocal = true ∧ (12 : Byte) = s.settings.station ∧ e.state ≠ .ending
       ∧ slotFits s (12, 9) e ∧ e.source = some 4)
    ∧ (let b : FrameBody := .lapse 9 61; let e := endedAs .released 5 (remote 9 61 112)
       let s := before (from7 b) (withEntries [e] idle)
       Completes s (from7 b) (lastOf (from7 b)) ∧ knownSender s (from7 b) ∧ isStation 9 = true ∧ distinctClaims s
       ∧ s.entry (9, 61) = some e ∧ e.state = .ending ∧ e.endCause ≠ some .restarted) := by
  refine ⟨?_, ?_, ?_, ?_, ?_, ?_, ?_⟩ <;>
    exact ⟨(before_completes _ _ rfl rfl rfl (by decide)).1, (before_completes _ _ rfl rfl rfl (by decide)).2, by decide⟩

/-- The fingerprint of `cfg` is 0x1234; another one is news while no match is stored. -/
theorem witness_PresenceFrameSetsThePeer :
    ∀ fp : Half,
      let b : FrameBody := .presence .quiet3 fp
      let s := before (from7 b) idle
      Completes s (from7 b) (lastOf (from7 b)) ∧ knownSender s (from7 b) ∧ s.port.events.length < 16
      ∧ (s.peer 7).fingerprintMatch = none ∧ s.settings.fingerprint = 0x1234 :=
  fun _ => ⟨(before_completes _ _ rfl rfl rfl (by decide)).1, (before_completes _ _ rfl rfl rfl (by decide)).2, (by decide : 0 < 16), rfl, rfl⟩

theorem witness_NameFrameBecomesPending :
    let b : FrameBody := .name 18 spaces
    let s := before (from7 b) (idle.setNames { idle.names with pendingName := some ⟨spaces, 18, 9⟩ })
    Completes s (from7 b) (lastOf (from7 b)) ∧ knownSender s (from7 b)
    ∧ newerName ⟨printableText spaces, 18, 7⟩ ⟨spaces, 18, 9⟩ = true ∧ newerName ⟨printableText spaces, 18, 7⟩ ⟨spaces, 18, 6⟩ = false :=
  ⟨(before_completes _ _ rfl rfl rfl (by decide)).1, (before_completes _ _ rfl rfl rfl (by decide)).2, by decide, by decide⟩

theorem witness_PeersAreHeardAndRestart :
    (let b : FrameBody := .name 18 spaces
     let s := before (from7 b) (idle.setNames { idle.names with applied := ⟨spaces, 18, 7⟩ })
     let s := s.setPeers idle.peers
     Completes s (from7 b) (lastOf (from7 b)) ∧ (s.peer 7).state ≠ .present ∧ (s.peer 7).mark = none
     ∧ newerName ⟨printableText spaces, 18, 7⟩ s.names.newest = false ∧ s.port.events.length < 16)
    ∧ (let b : FrameBody := .name 18 spaces
       let ended := { remote 7 41 112 with state := .ending, endCause := some .released, endingSince := some 0 }
       let s := before (from7 b) (onAir (remote 7 42 112) (withEntries [ended, remote 7 43 112, remote 9 61 112] idle))
       let s := s.setPeers (s.peers.setIfInBounds 6 { s.peer 7 with mark := some 0x50 })
       Completes s (from7 b) (lastOf (from7 b)) ∧ (s.peer 7).state = .present ∧ (s.peer 7).mark = some 0x50
       ∧ (0x50 : Byte) ≠ (from7 b).mark ∧ distinctClaims s ∧ localityHolds s ∧ slotAgrees s) := by
  constructor
  · obtain ⟨a, b, c, d, e, f, g, h⟩ := (before_completes (.name 18 spaces) idle rfl rfl rfl (by decide)).1
    exact ⟨⟨a, b, c, d, e, f, g, h⟩, by decide⟩
  · obtain ⟨a, b, c, d, e, f, g, h⟩ := (before_completes (.name 18 spaces) idle rfl rfl rfl (by decide)).1
    exact ⟨⟨a, b, c, d, e, f, g, h⟩, by decide⟩

/-! #### The transmitter, the peers, the names, the cells and the port -/

theorem witness_QueueIsOrderedAndShedsByRank :
    (queueOrdered fullQueue ∧ (from7 (.lapse 9 61)).inTransmission = false)
    ∧ (let s := idle.setTx { idle.tx with queue := fullQueue }
       s.tx.queue.length = 8 ∧ s.port.events.length < 16
       ∧ (∀ g ∈ s.tx.queue, g.inTransmission = false → g.body.rank ≤ (from7 (.presence .active 0)).body.rank)
       ∧ s.tx.queue = fullQueue.dropLast ++ from7 (.presence .active 0) :: []
       ∧ (from7 (.lapse 9 61)).body.rank < (from7 (.presence .active 0)).body.rank
       ∧ (∀ h ∈ fullQueue.dropLast, h.inTransmission = false → h.body.rank ≤ (from7 (.presence .active 0)).body.rank)) := by
  decide

/-- The head of the queue waits with this backoff count, on a line in this state. -/
def backing (n : Nat) (line : LineState) : State :=
  (idle.setTx { idle.tx with queue := [from7 (.release 40 0), from7 (.release 41 0)], backoff := some n }).setRx
    { idle.rx with line := line }

theorem witness_BackoffCountsAndTheHeadIsSent :
    ((backing 0 .idle).running = true ∧ (backing 0 .idle).tx.queue = from7 (.release 40 0) :: [from7 (.release 41 0)]
     ∧ (backing 0 .idle).tx.backoff = some 0 ∧ (backing 0 .idle).tx.sending = none ∧ (backing 0 .idle).rx.line = .idle)
    ∧ (backing 1 .idle).tx.backoff = some 1 ∧ (backing 0 .busy).rx.line = .busy := by decide

/-- A RELEASE whose character `index` is on the line, on attempt `attempt`, with the receiver as given. -/
def onLine (attempt index : Nat) (stopping : Bool) (rx : Receiver) : State :=
  (idle.setTx { idle.tx with
    queue := [{ from7 (.release 40 0) with inTransmission := true, attempt := attempt }, from7 (.release 41 0)],
    driverEnable := true, sending := some ⟨(from7 (.release 40 0)).characters, index, stopping⟩ }).setRx rx

def waiting : Receiver := { idle.rx with line := .busy, state := .waitIdle }
def ownLast : Receiver := { idle.rx with line := .busy, state := .assembling, length := some 5, buffer := [3, 7, 0x51, 40, 0, 9], own := true }

theorem witness_OwnCharactersAreReadBack :
    (∀ stopping : Bool, let s := onLine 1 7 stopping waiting; let a : Attempt := ⟨(from7 (.release 40 0)).characters, 7, stopping⟩
     s.running = true ∧ s.rx.state = .waitIdle ∧ s.tx.sending = some a ∧ a.stopping = stopping ∧ a.index + 1 < a.chars.length)
    ∧ (let s := onLine 1 8 false ownLast; let a : Attempt := ⟨(from7 (.release 40 0)).characters, 8, false⟩
       s.running = true ∧ s.tx.sending = some a ∧ a.stopping = false ∧ a.index + 1 = a.chars.length
       ∧ presenceAlone (from7 (.release 40 0)) [from7 (.release 41 0)] ∧ s.rx.state = .assembling ∧ s.rx.own = true ∧ s.rx.length = some 5
       ∧ s.rx.buffer.length + 1 = (5 : Byte).toNat + 2) := by
  constructor
  · intro stopping; exact ⟨rfl, rfl, rfl, rfl, (by decide +kernel : 7 + 1 < (from7 (.release 40 0)).characters.length)⟩
  · exact ⟨rfl, rfl, rfl, by decide +kernel, by decide, rfl, rfl, rfl, by decide⟩

/-- The own start character in READY, the length character, a stored one; and a PRESENCE that leaves with the renewal mark set, the
only frame of the queue or with another behind it. -/
theorem witness_OwnCharactersInAnAssembly :
    (byteAt (from7 (.release 40 0)).characters 0 = 0xC3 ∧ (onLine 1 0 false idle.rx).rx.state = .ready)
    ∧ (byteAt (from7 (.release 40 0)).characters 1 = 5 ∧ (onLine 1 1 false { ownLast with length := none, buffer := [] }).rx.length = none)
    ∧ (let s := onLine 1 5 true { ownLast with buffer := [3, 7, 0x51] }
       s.running = true ∧ s.rx.state = .assembling ∧ s.rx.length = some 5 ∧ s.rx.buffer.length + 1 < (5 : Byte).toNat + 2
       ∧ ∃ a, s.tx.sending = some a ∧ a.stopping = true ∧ a.index + 1 < a.chars.length)
    ∧ (∀ alone : Bool,
       let f := { from7 (.presence .quiet1 0) with inTransmission := true }; let q := if alone then [] else [from7 (.release 41 0)]
       let s := (onLine 1 0 false { ownLast with length := some 6, buffer := [1, 7, 0x51, 1, 0, 0, 9] }).setTx
         { idle.tx with queue := f :: q, renewal := true, driverEnable := true, sending := some ⟨f.characters, 9, false⟩ }
       s.running = true ∧ s.tx.queue = f :: q ∧ f.characters.length = 10 ∧ presenceAlone f q ∧ s.tx.renewal = true
       ∧ s.rx.own = true ∧ s.rx.buffer.length + 1 = (6 : Byte).toNat + 2) := by
  refine ⟨by decide +kernel, by decide +kernel, ⟨rfl, rfl, rfl, by decide, _, rfl, rfl, by decide +kernel⟩, fun alone => ?_⟩
  cases alone <;> decide +kernel

/-- R117 of the only frame: the queue is empty and has no backoff count. R113: a PRESENCE sent with the renewal mark set is renewed. -/
theorem test_only_frame_sent :
    (let s := onLine 1 8 false ownLast
     after .frameSent (s.setTx { s.tx with queue := s.tx.queue.take 1, backoff := some 0 }) (fun t =>
       t.tx == { s.tx with queue := [], sending := none, driverEnable := false, backoff := none }
         && t.rx.counters.framesSent == 1)) = true
    ∧ (let f := { from7 (.presence .quiet1 0) with inTransmission := true, attempt := 5 }
       let s := (onLine 5 0 false waiting).setTx { idle.tx with queue := [f], renewal := true, sending := some ⟨f.characters, 3, false⟩ }
       after (.collision 0xFF false) s (fun t =>
         t.tx.queue.map Frame.body == [.presence .active 0x1234] && !t.tx.renewal
           && t.port.events.map EventRecord.kind == [.frameDropped])) = true := by decide +kernel

/-- The character 40 at index 5 read back as 41, and with a framing error; on attempts 4 and 5, and in a stopped attempt; and a PRESENCE
as the head, with and without the renewal mark. -/
theorem witness_CollisionsRetryOrDrop :
    (∀ attempt : Fin 2, let s := onLine (4 + attempt.val) 5 false waiting
     s.running = true ∧ s.rx.state = .waitIdle ∧ s.port.events.length < 16
     ∧ (∃ f q, s.tx.queue = f :: q ∧ f.attempt = 4 + attempt.val ∧ presenceAlone f q)
     ∧ ∃ a, s.tx.sending = some a ∧ a.stopping = false ∧ byteAt a.chars a.index = 40)
    ∧ (let s := onLine 1 5 false { ownLast with buffer := [3, 7, 0x51] }
       s.running = true ∧ s.rx.state = .assembling ∧ s.rx.length = some 5 ∧ s.rx.buffer.length + 1 < (5 : Byte).toNat + 2
       ∧ ∃ a, s.tx.sending = some a ∧ a.stopping = false ∧ byteAt a.chars a.index = 40)
    ∧ (∃ a, (onLine 1 5 true waiting).tx.sending = some a ∧ a.stopping = true ∧ byteAt a.chars a.index = 40)
    ∧ (∀ renewal : Bool, let f := { from7 (.presence .quiet1 0) with inTransmission := true, attempt := 5 }
       let q := [from7 (.release 41 0)]
       let s := (onLine 5 0 false waiting).setTx
         { idle.tx with queue := f :: q, renewal := renewal, sending := some ⟨f.characters, 3, false⟩ }
       s.running = true ∧ s.tx.queue = f :: q ∧ presenceAlone f q ∧ f.attempt = 5 ∧ byteAt f.characters 3 = 7) := by
  refine ⟨fun attempt => ⟨rfl, rfl, by decide +revert, ⟨_, _, rfl, rfl, nofun⟩, ⟨_, rfl, rfl, by decide +kernel⟩⟩, ?_,
    ⟨_, rfl, rfl, by decide +kernel⟩, fun renewal => ?_⟩
  · exact ⟨rfl, rfl, rfl, by decide, ⟨_, rfl, rfl, by decide +kernel⟩⟩
  · exact ⟨rfl, rfl, by decide, rfl, by decide +kernel⟩

/-- A collision on the own start character, on the length character (2, 3, 20 and 21 in its place) and on a stored one. -/
theorem witness_CollisionsInEveryReceiverState :
    ∀ attempt : Fin 2,
      (let s := onLine (4 + attempt.val) 0 false idle.rx
       s.running = true ∧ s.rx.state = .ready ∧ byteAt (from7 (.release 40 0)).characters 0 = 0xC3 ∧ (0xC2 : Byte) ≠ 0xC3)
      ∧ (let s := onLine (4 + attempt.val) 1 false { ownLast with length := none, buffer := [] }
         s.running = true ∧ s.rx.state = .assembling ∧ s.rx.length = none ∧ byteAt (from7 (.release 40 0)).characters 1 = 5
         ∧ (2 : Byte).toNat < 3 ∧ 3 ≤ (3 : Byte).toNat ∧ (20 : Byte).toNat ≤ 20 ∧ 20 < (21 : Byte).toNat)
      ∧ (let s := onLine (4 + attempt.val) 5 false { ownLast with buffer := [3, 7, 0x51] }
         s.running = true ∧ s.rx.state = .assembling ∧ s.rx.length = some 5 ∧ s.rx.buffer.length + 1 < (5 : Byte).toNat + 2
         ∧ ∃ f q, s.tx.queue = f :: q ∧ f.attempt = 4 + attempt.val ∧ presenceAlone f q) := by
  intro attempt
  exact ⟨⟨rfl, rfl, by decide +kernel, by decide⟩, ⟨rfl, rfl, rfl, by decide +kernel, by decide⟩,
    ⟨rfl, rfl, rfl, (by decide : 3 + 1 < 7), _, _, rfl, rfl, nofun⟩⟩

/-- Station 9 PRESENT with this deadline, at an increase of the second count, station time 25; (9, 62) waits. -/
def silent (deadline : Time) : State :=
  let s := onAir (remote 9 61 232) (withEntries [remote 9 62 112, remote 7 42 112] idle)
  let s := s.setPeers (s.peers.setIfInBounds 8 { peerAtStart with state := .present, deadline := some deadline })
  s.setClock { s.clock with stationTime := 25, atSecond := true }

theorem witness_SilentPeerBecomesAbsent :
    (let s := silent 25
     s.running = true ∧ isStation 9 = true ∧ s.clock.atSecond = true ∧ (s.peer 9).state = .present ∧ (s.peer 9).deadline = some 25
     ∧ ((s.clock.stationTime - 25).toNat < 2 ^ 31) ∧ distinctClaims s ∧ localityHolds s ∧ slotAgrees s
     ∧ (9 : Byte) ≠ s.settings.station ∧ (s.peer 9).absences < 255 ∧ s.tx.queue.length < 8
     ∧ s.port.events.length + (s.claims.entries.filter fun e => e.origin = 9 ∧ e.state ≠ .ending).length < 16
     ∧ (s.claims.entries.filter fun e => e.origin = 9 ∧ e.state ≠ .ending).length = 2)
    ∧ (let s := silent 26
       (s.peer 9).deadline = some 26 ∧ 2 ^ 31 ≤ (s.clock.stationTime - 26).toNat)
    ∧ (idle.peer 9).state ≠ .present := by decide

/-- The presence timer at `n` seconds in QUIET1, whose period is 4 s, with this queue. -/
def scheduled (n : Nat) (q : List Frame) : State :=
  (idle.setPresence { idle.presence with level := .quiet1, presenceTimer := n }).setTx { idle.tx with queue := q }

theorem witness_PresenceIsOfferedAndDownshifts :
    ((scheduled 3 []).running = true ∧ (scheduled 3 []).presence.presenceTimer < (scheduled 3 []).presence.level.period
     ∧ (scheduled 3 []).presence.periodicDue = false)
    ∧ (let s := scheduled 3 []
       (s.setPresence { s.presence with periodicDue := true }).presence.periodicDue = true)
    ∧ ((scheduled 4 [from7 (.release 40 0)]).presence.level.period ≤ (scheduled 4 [from7 (.release 40 0)]).presence.presenceTimer
       ∧ ∀ f ∈ (scheduled 4 [from7 (.release 40 0)]).tx.queue, f.isPresence = false)
    ∧ (∀ sent : Bool, let f := { from7 (.presence .active 0) with inTransmission := sent }; let s := scheduled 4 (f :: [from7 (.name 1 spaces)])
       s.tx.queue = [] ++ f :: [from7 (.name 1 spaces)] ∧ f.isPresence = true ∧ f.inTransmission = sent
       ∧ ∀ g ∈ [] ++ [from7 (.name 1 spaces)], g.isPresence = false)
    ∧ (let s := idle.setPresence { level := .quiet1, downshiftTimer := 50, presenceTimer := 0, downshiftDue := true }
       s.running = true ∧ s.presence.downshiftDue = true ∧ s.presence.level.downshiftLimit = some 50 ∧ 50 ≤ s.presence.downshiftTimer
       ∧ s.tx.queue = []
       ∧ ¬ ((∃ e ∈ s.claims.entries, e.state ≠ .ending) ∨ s.cues.manual ≠ .idle ∨ ∃ ch ∈ s.cues.channels.toList, ch.state ≠ .idle)
       ∧ ∃ e ∈ (withEntries [remote 7 42 112] s).claims.entries, e.state ≠ .ending) := by
  refine ⟨by decide, by decide, by decide, ?_, by decide⟩
  intro sent; cases sent <;> decide

/-- At the increase at which both are due, the downshift goes first: its PRESENCE is placed with the new level, the periodic offer
is still made (R137), and writes the level into the frame that waits (R113). -/
theorem test_downshift_and_period :
    let s := idle.setPresence { idle.presence with level := .quiet1, downshiftTimer := 50, presenceTimer := 4, downshiftDue := true }
    after .downshiftTest s (fun t => after .periodicPresence t (fun u =>
      t.presence.periodicDue && u.presence.presenceTimer == 0 && !u.presence.periodicDue
        && u.tx.queue.map Frame.body == [.presence .quiet2 0x1234])) = true := by
  decide +kernel

/-- The own name is applied and its repeat timer stands at `n`. -/
def ownName (n : Nat) : State := idle.setNames { idle.names with applied := ⟨spaces, 3, 12⟩, repeatTimer := n }

theorem witness_OwnNamesArePendingAndRepeated :
    (idle.openRunning ∧ idle.tx.queue.length < 8 ∧ isStation idle.settings.station = true)
    ∧ ((ownName 30).running = true ∧ (ownName 30).names.applied.origin = (ownName 30).settings.station
       ∧ 30 ≤ (ownName 30).names.repeatTimer ∧ (ownName 29).names.repeatTimer < 30)
    ∧ idle.names.applied.origin ≠ idle.settings.station := by decide

/-- A cell boundary at this position and burst count, with `e` on air. -/
def atCell (position : Fin 6) (burst : Nat) : State :=
  let s := onAir { remote 9 61 232 with cls := .alert, label := 7 } (withEntries [remote 7 42 112] idle)
  s.setCells { s.cells with position := position, burst := burst, boundaryDue := true }

/-- The first cell of a start is a FILL cell, though the load has ended (R162); behind it stands the carousel's first. -/
theorem test_first_cell_is_fill :
    let s := atCell 0 0
    after .cellBegin (s.setCells { s.cells with bit := none }) (fun t => t.cells.cell == fillCell && t.cells.position == 0) = true
    ∧ after .cellBegin s (fun t => t.cells.position == 1) = true := by decide +kernel

theorem witness_CellsCarryTheirContents :
    (let s := State.reset.setCells { State.reset.cells with boundaryDue := true }
     s.loader.resetHeld = false ∧ s.loader.runState ≠ .running ∧ s.cells.boundaryDue = true
     ∧ ¬ (s.reference.state = .returning ∧ s.reference.returnDue = true))
    ∧ ((atCell 0 0).setCells { (atCell 0 0).cells with bit := none }).running = true ∧ (atCell 0 0).cells.bit ≠ none
    ∧ (∀ b : Fin 4, let s := atCell 3 b.val; let e := { remote 9 61 232 with cls := .alert, label := 7, state := .onAir }
       s.running = true ∧ s.cells.boundaryDue = true ∧ ¬ (s.reference.state = .returning ∧ s.reference.returnDue = true)
       ∧ s.selector.onAir = (some e).map Entry.key ∧ s.entry e.key = some e ∧ e.label.toNat ≤ 7 ∧ s.cells.burst = b.val
       ∧ s.cells.position = 3)
    ∧ (idle.selector.onAir = (none : Option Entry).map Entry.key)
    ∧ (∀ g : Fin 4, let s := atCell (#v[1, 2, 4, 5] : Vector (Fin 6) 4)[g] 0
       s.running = true ∧ s.cells.boundaryDue = true ∧ s.cells.burst = 0
       ∧ s.cells.position = (#v[1, 2, 4, 5] : Vector (Fin 6) 4)[g]) := by decide

theorem witness_CycleStartAppliesTheName :
    (let s := (atCell 0 0).setNames { idle.names with pendingName := some ⟨spaces, 18, 9⟩, labelSwap := true }
     let e := { remote 9 61 232 with cls := .alert, label := 7, state := .onAir }
     s.running = true ∧ s.cells.boundaryDue = true ∧ s.cells.burst = 0 ∧ s.cells.position = 0
     ∧ ¬ (s.reference.state = .returning ∧ s.reference.returnDue = true) ∧ s.port.events.length < 16 ∧ s.tx.queue.length < 8
     ∧ s.names.pendingName = some ⟨spaces, 18, 9⟩ ∧ s.selector.onAir = some e.key ∧ s.entry e.key = some e
     ∧ e.label.toNat = (6 : Fin 7).val + 1)
    ∧ (let e := { remote 7 42 112 with label := 1, state := .onAir }
       (onAir { remote 7 42 112 with label := 1 } idle).entry e.key = some e ∧ e.label.toNat = (0 : Fin 7).val + 1)
    ∧ (let e := { remote 7 42 112 with state := .onAir }
       (onAir (remote 7 42 112) idle).selector.onAir = some e.key ∧ (onAir (remote 7 42 112) idle).entry e.key = some e ∧ e.label = 0)
    ∧ (idle.names.pendingName = none ∧ idle.names.labelSwap = false) := by decide

/-- Bit `i` of a cell is on the data line, with the Reference Monitor in this state and phase count. -/
def atBit (i : Nat) (st : ReferenceState) (phase : Fin 4) : State :=
  (idle.setCells { idle.cells with bit := some i }).setReference { idle.reference with state := st, phaseCount := phase }

/-- The bit clock (R157): in LOCKED high from the fourth edge on, low from the second edge behind it; on backup timing low at the middle
of the bit, which an empty queue passes. -/
theorem test_bit_clock :
    let edge := fun (s : State) => match exec .referenceEdge s with | .next t => t | _ => s
    let bit := edge (atBit 5 .locked 3)
    (bit.cells.bitClock, (edge bit).cells.bitClock, (edge (edge bit)).cells.bitClock, (edge (edge (edge (edge bit)))).cells.bitClock)
      = (true, true, false, true)
    ∧ after .bitBoundary (atBit 5 .lost 0) (fun t => t.cells.bitClock && !(passTime t).cells.bitClock) = true := by decide +kernel

/-- Before the first cell of a start, and at bits 38 and 39, in both timings and at each phase count. -/
theorem witness_BitsFollowAtTheBoundaries :
    ∀ (st : Fin 2) (phase : Fin 4) (i : Fin 3),
      let base := atBit (38 + i.val) (if st = 0 then .locked else .lost) phase
      let s := if i = 2 then base.setCells { base.cells with bit := none } else base
      s.loader.resetHeld = false ∧ s.cells.boundaryDue = false ∧ s.cells.bit = (if i = 2 then none else some (38 + i.val))
      ∧ (s.reference.state = .locked ↔ st = 0) ∧ s.reference.awaitingEdge = false ∧ s.reference.phaseCount = phase := by decide

/-- R162, R163: from the start values, the fourth edge begins the stream; and a loss before any edge begins it at once. -/
theorem test_stream_begins :
    let edge := fun (s : State) => match exec .referenceEdge s with | .next t => t | _ => s
    let four := edge (edge (edge (edge State.reset)))
    ((edge (edge (edge State.reset))).cells.boundaryDue, four.cells.boundaryDue) = (false, true)
    ∧ after .cellBegin four (fun t => t.cells.cell == fillCell && t.cells.bit == some 0) = true
    ∧ after .referenceGap State.reset (fun t => t.cells.boundaryDue && t.reference.state == .lost) = true := by decide +kernel

theorem witness_ReferenceIsLostAndReturns :
    (let s := atBit 38 .locked 0
     s.loader.resetHeld = false ∧ s.reference.state = .locked ∧ s.reference.awaitingEdge = false ∧ s.cells.boundaryDue = false
     ∧ s.cells.bit = some 38)
    ∧ (let s := (atBit 39 .locked 0).setReference { idle.reference with awaitingEdge := true }
       s.loader.resetHeld = false ∧ s.reference.state = .locked ∧ s.reference.awaitingEdge = true)
    ∧ (∀ (auto mark : Bool),
        let s := (atBit 0 .returning 0).setSettings { cfg with autoReturn := auto }
        let s := s.setReference { s.reference with releaseMark := mark }
        s.loader.resetHeld = false ∧ s.reference.state = .returning ∧ s.reference.returnDue = false ∧ s.settings.autoReturn = auto
        ∧ s.reference.releaseMark = mark)
    ∧ ((atBit 0 .lostHeld 0).reference.state = .lostHeld ∧ (atBit 0 .lost 0).reference.state = .lost) := by decide

theorem witness_SwitchAtTheCellBoundary :
    let s := (atBit 39 .returning 0).setReference { idle.reference with state := .returning, returnDue := true, backupSeconds := 4 }
    let s := s.setCells { s.cells with boundaryDue := true }
    s.loader.resetHeld = false ∧ s.cells.boundaryDue = true ∧ s.reference.state = .returning ∧ s.reference.returnDue = true
    ∧ s.port.events.length < 16 := by decide

/-- A part with a full event queue. -/
def eventful : State :=
  idle.setPort { idle.port with events := List.replicate 16 ⟨.tableFull, 9, 7, 42, 1⟩, overflow := true }

theorem witness_EventsReturnsAndEmptiesTheQueue :
    (eventful.loader.resetHeld = false ∧ eventful.port.restartDue = false ∧ eventful.port.events.length = 16)
    ∧ (State.reset.loader.resetHeld = false ∧ State.reset.port.restartDue = false) := by decide

theorem witness_StatusReturnsTheRecord :
    (State.reset.loader.resetHeld = false ∧ State.reset.port.restartDue = false ∧ State.reset.selector.onAir = none)
    ∧ (let s := onAir (remote 7 42 112) idle; let e := { remote 7 42 112 with state := .onAir }
       s.loader.resetHeld = false ∧ s.port.restartDue = false ∧ s.selector.onAir = some e.key ∧ s.entry e.key = some e) := by decide

theorem witness_ReportsReturnAndClear : service.openRunning ∧ service.claims.entries.length ≤ 16 ∧ distinctClaims service := by decide

theorem witness_PortAnswersByRunState :
    (State.reset.loader.resetHeld = false ∧ State.reset.port.restartDue = false ∧ State.reset.loader.runState ≠ .running)
    ∧ (0x00 : Byte) ∉ knownCommandCodes ∧ (0xFF : Byte) ∉ knownCommandCodes
    ∧ ([] : List Bool).length < 8 ∧ (List.replicate 7 true).length < 8 := by decide

/-- SET_NAME sends thirteen bytes of 0x00, its reply and 0x00 (R171). -/
theorem test_bytes_of_set_name :
    after (decodeTransaction (0x10 :: List.replicate 12 0x41)) idle (fun t =>
      (List.range 16).map (t.byteSent 0x10) == List.replicate 13 0x00 ++ [0xA0, 0x00, 0x00]) = true := by decide +kernel

/-- Five live local entries and an announcement on air. -/
theorem witness_ClearEmptiesTheTables :
    let s := onAir (remote 7 42 112) (withEntries [own 1 0, own 2 1, own 3 2, own 4 3, own 5 4] idle)
    s.openRunning ∧ s.port.events.length < 15
    ∧ (s.claims.entries.filter fun e => e.isLocal && e.state != .ending).length = 5 := by decide

end Sys2Proof.Tests
end

section
/-! The score (R28 to R33): each stage as an equation, the range it stays in, and the obligation on the whole. -/

namespace Sys2Proof.Machine

theorem satAdd_le_255 (a b : Nat) : satAdd a b ≤ 255 := Nat.min_le_right _ _

theorem satSub_le_left (a b : Nat) : satSub a b ≤ a := Nat.sub_le a b

/-- The shift of R31 is a division by a power of two. -/
theorem Settings.ageBonus_eq_div (cfg : Settings) (age : Nat) :
    cfg.ageBonus age = min (if cfg.ageShift ≤ 15 then age / 2 ^ cfg.ageShift else 0) cfg.ageCap := by
  rw [Settings.ageBonus, Nat.shiftRight_eq_div_pow]

/-- The stages before the penalty end on a saturating addition, whether or not the local bonus is added. -/
theorem localStage_le_255 (a b bonus : Nat) (isLocal : Bool) :
    (if isLocal then satAdd (satAdd a b) bonus else satAdd a b) ≤ 255 := by
  split
  · exact satAdd_le_255 _ _
  · exact satAdd_le_255 _ _

/-- The penalty only lowers a third stage that is in range already. -/
theorem Settings.score_le_255 (cfg : Settings) (cls : ClaimClass) (m age : Nat) (isLocal : Bool) (d : Nat) :
    cfg.score cls m age isLocal d ≤ 255 :=
  (satSub_le_left _ _).trans (localStage_le_255 _ _ _ _)

/-- Settles O24: the age bonus is the only stage not written as the statement writes it. -/
theorem scoreOfTheFourStages : Obligations.ScoreOfTheFourStages := by
  intro cfg cls m age d isLocal base bonus second third
  have hbonus : cfg.ageBonus age = bonus := cfg.ageBonus_eq_div age
  have hscore : cfg.score cls m age isLocal d = third - min (d * cfg.demoteStep) 255 := by
    rw [Settings.score, hbonus]
    rfl
  exact ⟨hscore, cfg.score_le_255 cls m age isLocal d⟩

end Sys2Proof.Machine
end

section
/-! The newest known name and the names newer than it (R143): each as the cases of the rule, and the obligation on both. -/

namespace Sys2Proof.Machine

theorem NameStore.newest_of_pending {names : NameStore} {p : NameRecord} (h : names.pendingName = some p) :
    names.newest = p := by
  rw [NameStore.newest, h, Option.getD_some]

theorem NameStore.newest_of_no_pending {names : NameStore} (h : names.pendingName = none) :
    names.newest = names.applied := by
  rw [NameStore.newest, h, Option.getD_none]

/-- The model subtracts two versions as words: on the numbers this is R143's difference modulo 65536. -/
theorem versionDifference_toNat (a b : Half) : (a - b).toNat = (a.toNat + 65536 - b.toNat) % 65536 := by
  have hb : b.toNat < 65536 := b.isLt
  rw [BitVec.toNat_sub]
  congr 1
  omega

/-- The three cases of R143, with the difference of the versions still a word. -/
theorem newerName_iff (n k : NameRecord) :
    newerName n k = true ↔
      k.origin = 0
      ∨ (1 ≤ (n.version - k.version).toNat ∧ (n.version - k.version).toNat ≤ 32767)
      ∨ (n.version = k.version ∧ n.origin.toNat < k.origin.toNat) := by
  simp only [newerName, Bool.or_eq_true, Bool.and_eq_true, beq_iff_eq, decide_eq_true_eq, or_assoc]

/-- Settles O26: the cases are the model's own; the difference of the versions is what has to be read as a number. No case looks at
the offered origin's range. -/
theorem whichNameIsNewer : Obligations.WhichNameIsNewer := by
  refine ⟨fun names => ⟨fun _ => NameStore.newest_of_pending, NameStore.newest_of_no_pending⟩, ?_⟩
  intro n k _ d
  have hd : (n.version - k.version).toNat = d := versionDifference_toNat n.version k.version
  rw [newerName_iff, hd]

end Sys2Proof.Machine
end

section
/-! The report of EVENTS (R177) and the attention output (R178). -/

namespace Sys2Proof.Machine

/-- What EVENTS does while the port takes transactions. -/
theorem exec_events_of_open {s : State} (hreset : s.loader.resetHeld = false) (hrestart : s.port.restartDue = false) :
    exec .events s = .next (takeEvents s) := by
  have hopen : s.portOpen = true := by simp [State.portOpen, hreset, hrestart]
  exact congrArg Host.Outcome.next (if_pos hopen)

/-- An event record is 8 bytes long. -/
@[simp] theorem EventRecord.length_bytes (r : EventRecord) : r.bytes.length = 8 := rfl

theorem length_flatMap_bytes (events : List EventRecord) :
    (events.flatMap EventRecord.bytes).length = 8 * events.length := by
  induction events with
  | nil => rfl
  | cons r rest ih =>
    rw [List.flatMap_cons, List.length_append, r.length_bytes, ih, List.length_cons]
    omega

theorem State.attention_iff (s : State) : s.attention = true ↔ s.loader.resetHeld = false ∧ s.port.events ≠ [] := by
  simp [State.attention]

/-- EVENTS leaves an empty queue, so attention falls. -/
theorem attention_takeEvents (s : State) : (takeEvents s).attention = false := by
  have hempty : (takeEvents s).port.events = [] := rfl
  rw [Bool.eq_false_iff, ne_eq, State.attention_iff]
  exact fun ⟨_, hne⟩ => hne hempty

/-- Settles O56: EVENTS is `takeEvents` on an open port, which leaves no record to attend to. -/
theorem eventsReturnsAndEmptiesTheQueue : Obligations.EventsReturnsAndEmptiesTheQueue := by
  refine ⟨fun s hreset hrestart => ?_, State.attention_iff⟩
  have hexec := exec_events_of_open hreset hrestart
  refine ⟨hexec, length_flatMap_bytes s.port.events, fun t ht => ?_⟩
  have hnext : t = takeEvents s := Host.Outcome.next.inj (ht.symm.trans hexec)
  rw [hnext]
  exact attention_takeEvents s

end Sys2Proof.Machine
end

section
/-! What an accepted image gives (R182, R185): the clamp of each byte as a number, the tables of the image by index, and the
settings and names that the load leaves. -/

namespace Sys2Proof.Machine

/-! ### The clamps as numbers -/

theorem halfOf_toNat (hi lo : Byte) : (halfOf hi lo).toNat = hi.toNat * 256 + lo.toNat := by
  rw [halfOf, BitVec.toNat_append, ← Nat.shiftLeft_add_eq_or_of_lt lo.isLt, Nat.shiftLeft_eq]

theorem feedOfByte_eq (b : Byte) : feedOfByte b = if b.toNat ≤ 15 then BitVec.ofNat 4 b.toNat else 0 := by
  rfl

theorem countOfByte_eq (b : Byte) : countOfByte b = b.toNat % 64 + 1 := by
  rw [countOfByte, BitVec.extractLsb'_toNat, Nat.shiftRight_zero]

/-- The codes 0 to 3 are the ranks, and a higher one reads as ALERT. -/
theorem clampedClass_rank (b : Byte) : (clampedClass b).rank = min b.toNat 3 := by
  unfold clampedClass classOfCode
  split
  next h => subst h; rfl
  split
  next h => subst h; rfl
  split
  next h => subst h; rfl
  split
  next h => subst h; rfl
  next h0 h1 h2 h3 =>
    have hhigh : 3 ≤ b.toNat := by bv_omega
    exact (Nat.min_eq_right hhigh).symm

/-! ### The stages (R85, R86) -/

/-- The clamp of R86 leaves the actions, and each stage that is on holds for the largest of the holds up to its own. -/
theorem getElem_raiseHolds (stages : List Stage) (highest i : Nat) (h : i < (raiseHolds highest stages).length)
    (h' : i < stages.length) :
    (raiseHolds highest stages)[i].hold =
        (if stages[i].hold = 0 then 0 else ((stages.take (i + 1)).map Stage.hold).foldl max highest)
    ∧ (raiseHolds highest stages)[i].action = stages[i].action := by
  induction stages generalizing highest i with
  | nil => exact absurd h' (Nat.not_lt_zero i)
  | cons st rest ih =>
    by_cases hoff : st.hold = 0
    · cases i with
      | zero => simp [raiseHolds, hoff]
      | succ i =>
        have := ih highest i (by simpa [raiseHolds, hoff] using h) (by simpa using h')
        simpa [raiseHolds, hoff] using this
    · cases i with
      | zero => simp [raiseHolds, hoff]
      | succ i =>
        have := ih (max highest st.hold) i (by simpa [raiseHolds, hoff] using h) (by simpa using h')
        simpa [raiseHolds, hoff] using this

/-- The hold of stage `i` as the image stores it. -/
def storedHold (image : List Byte) (i : Nat) : Nat :=
  (byteAt image (48 + 2 * i)).toNat * 256 + (byteAt image (49 + 2 * i)).toNat

theorem storedStages_eq (image : List Byte) :
    storedStages image = (List.range 4).map fun i => ⟨storedHold image i, actionOfCode (byteAt image (56 + i))⟩ := by
  simp only [storedStages, storedHold, halfOf_toNat]

theorem imageStages_getElem (image : List Byte) (i : Fin 4) :
    (imageStages image)[i].hold =
        (if storedHold image i = 0 then 0 else ((List.range (i + 1)).map (storedHold image)).foldl max 0)
    ∧ (imageStages image)[i].action = actionOfCode (byteAt image (56 + i)) := by
  have hlen : i.val < (storedStages image).length := by simp [storedStages]
  have hraised := getElem_raiseHolds (storedStages image) 0 i (by rwa [raiseHolds_length]) hlen
  have htake : ((storedStages image).take (i + 1)).map Stage.hold = (List.range (i + 1)).map (storedHold image) := by
    have hmin : min (i.val + 1) 4 = i + 1 := by omega
    rw [storedStages_eq, ← List.map_take, List.take_range, hmin, List.map_map]
    rfl
  rw [htake] at hraised
  simpa [imageStages, storedStages_eq] using hraised

/-! ### The other tables by index -/

theorem imageSettings_feedMap_getElem (image : List Byte) (i : Fin 31) :
    (imageSettings image).feedMap[i] = feedOfByte (byteAt image (4 + i)) := by
  simp [imageSettings]

theorem imageSettings_sources_getElem (image : List Byte) (c : Fin 5) :
    (imageSettings image).sources[c] = imageSource image c := by
  simp [imageSettings]

/-- The block of a cue source, with each byte at its offset from the start of the image. -/
theorem imageSource_eq (image : List Byte) (c : Nat) :
    imageSource image c =
      { baseline := byteAt image (60 + 9 * c), lowT := byteAt image (61 + 9 * c), highT := byteAt image (62 + 9 * c),
        nLo := countOfByte (byteAt image (63 + 9 * c)), nHi := countOfByte (byteAt image (64 + 9 * c)),
        nOff := countOfByte (byteAt image (65 + 9 * c)), cls := clampedClass (byteAt image (66 + 9 * c)),
        areas := byteAt image (67 + 9 * c), label := clampedLabel (byteAt image (68 + 9 * c)) } := by
  have hoffset (k : Nat) : 60 + 9 * c + k = 60 + k + 9 * c := Nat.add_right_comm 60 (9 * c) k
  simp only [imageSource, hoffset, Nat.reduceAdd]

/-- A character of a text of the image, with the replacement of R141. -/
theorem printableText_textAt_getElem (image : List Byte) (offset : Nat) (i : Fin 12) :
    (printableText (textAt image offset))[i] = printable (byteAt image (offset + i)) := by
  simp [printableText, textAt]

theorem imageLabels_getElem (image : List Byte) (k : Fin 7) :
    (imageLabels image)[k] = printableText (textAt image (105 + 12 * k)) := by
  simp [imageLabels]

/-! ### The load -/

theorem imageFault_of_accepted {image : List Byte} (h : ImageAccepted image) : imageFault image = none := by
  have hstation : isStation (byteAt image 1) = true := by simpa [isStation] using h.station
  have hcrc : ¬ imageCrc image ≠ imageStoredCrc image := not_not_intro h.crc
  have hmark : ¬ byteAt image 0 ≠ Config.formatMark := not_not_intro h.mark
  rw [imageFault, if_neg hcrc, if_neg hmark, hstation, if_neg (by decide), if_neg h.served]

/-- An accepted image is taken, and the service begins. -/
theorem exec_loadComplete_of_accepted {image : Vector Byte 203} {s : State} (hload : s.loading)
    (hok : ImageAccepted image.toList) :
    exec (.loadComplete image) s = .next (beginRunning (takeImage image.toList s)) := by
  obtain ⟨hstarting, hreset⟩ := hload
  have hend : endLoad image.toList s = beginRunning (takeImage image.toList s) := by
    rw [endLoad, if_pos hstarting, imageFault_of_accepted hok]
  rw [← hend]
  exact congrArg Host.Outcome.next (if_neg (by simp [hreset]))

@[simp] theorem beginReception_settings_names (s : State) :
    (beginReception s).settings = s.settings ∧ (beginReception s).names = s.names := by
  simp [beginReception]

@[simp] theorem beginRunning_settings_names (s : State) :
    (beginRunning s).settings = s.settings ∧ (beginRunning s).names = s.names := by
  simp [beginRunning]

/-- Settles O14: the load leaves `imageSettings`, the labels and the name of the image, whose tables are read by index. -/
theorem acceptedImageIsClamped : Obligations.AcceptedImageIsClamped := by
  intro image s hload hok b n
  refine ⟨_, exec_loadComplete_of_accepted hload hok, ?_⟩
  obtain ⟨hsettings, hnames⟩ := beginRunning_settings_names (takeImage image.toList s)
  rw [hsettings, hnames]
  have hfeeds (i : Fin 31) := (imageSettings_feedMap_getElem image.toList i).trans (feedOfByte_eq _)
  have hlabels (k : Fin 7) (i : Fin 12) :
      (imageLabels image.toList)[k][i] = printable (b (105 + 12 * k + i)) := by
    rw [imageLabels_getElem, printableText_textAt_getElem]
  refine ⟨rfl, rfl, rfl, rfl, rfl, hfeeds, rfl, rfl, rfl, rfl, rfl, rfl, rfl, rfl, rfl, rfl, rfl, rfl, rfl,
    imageStages_getElem image.toList, fun c => ?_, printableText_textAt_getElem image.toList 189, hlabels⟩
  intro x
  have hx : x = _ := (imageSettings_sources_getElem image.toList c).trans (imageSource_eq image.toList c)
  rw [hx]
  exact ⟨rfl, rfl, rfl, countOfByte_eq _, countOfByte_eq _, countOfByte_eq _, clampedClass_rank _, rfl, rfl⟩

end Sys2Proof.Machine
end
section
/-! The commands: what a command does under each of the four conditions it can wait for, that it always answers a next state, and
the steps that take no command. -/

namespace Sys2Proof.Machine

/-! ### The four conditions a command can wait for -/

theorem unlessHeld_eq {f : State → State} {s : State} (h : s.loader.resetHeld = false) : unlessHeld f s = .next (f s) := by
  simp [unlessHeld, h]

theorem unlessHeld_eq_of_held {f : State → State} {s : State} (h : s.loader.resetHeld = true) : unlessHeld f s = .next s := by
  simp [unlessHeld, h]

theorem whenRunning_eq {f : State → State} {s : State} (h : s.running = true) : whenRunning f s = .next (f s) := by
  simp [whenRunning, h]

theorem whenRunning_eq_of_not {f : State → State} {s : State} (h : s.running = false) : whenRunning f s = .next s := by
  simp [whenRunning, h]

theorem State.running_iff {s : State} : s.running = true ↔ s.loader.runState = .running ∧ s.loader.resetHeld = false := by
  simp [State.running]

theorem State.portOpen_iff {s : State} : s.portOpen = true ↔ s.loader.resetHeld = false ∧ s.port.restartDue = false := by
  simp [State.portOpen]

theorem atPort_eq {f : State → State} {s : State} (h : s.loader.resetHeld = false) (hd : s.port.restartDue = false) :
    atPort f s = .next (f s) := by
  simp [atPort, State.portOpen_iff.2 ⟨h, hd⟩]

theorem atRunningPort_eq {f : State → State} {s : State} (h : s.openRunning) : atRunningPort f s = .next (f s) := by
  rw [atRunningPort, atPort_eq h.1 h.2.1, if_pos h.2.2]

theorem atRunningPort_eq_of_not {f : State → State} {s : State} (h : s.loader.resetHeld = false)
    (hd : s.port.restartDue = false) (hr : s.loader.runState ≠ .running) : atRunningPort f s = .next (answer .refused s) := by
  rw [atRunningPort, atPort_eq h hd, if_neg hr]

theorem running_of_openRunning {s : State} (h : s.openRunning) : s.running = true := State.running_iff.2 ⟨h.2.2, h.1⟩

section
variable {P : State → Prop} {f : State → State} {s t : State}

/-- A command that acts unless the part is held keeps what its act keeps. -/
theorem unlessHeld_keeps (e : unlessHeld f s = .next t) (h : P s) (hf : s.loader.resetHeld = false → P (f s)) : P t := by
  cases e
  split
  · exact h
  · next hr => exact hf (by simpa using hr)

theorem whenRunning_keeps (e : whenRunning f s = .next t) (h : P s) (hf : s.running = true → P (f s)) : P t := by
  cases e
  split
  · next hr => exact hf hr
  · exact h

theorem atPort_keeps (e : atPort f s = .next t) (hrest : P (portReturns [] s)) (hf : s.loader.resetHeld = false → P (f s)) :
    P t := by
  cases e
  split
  · next ho => exact hf (State.portOpen_iff.1 ho).1
  · exact hrest

theorem atRunningPort_keeps (e : atRunningPort f s = .next t) (hrest : ∀ bytes, P (portReturns bytes s))
    (hf : s.running = true → P (f s)) : P t := by
  refine atPort_keeps e (hrest _) fun hheld => ?_
  split
  · next hr => exact hf (State.running_iff.2 ⟨hr, hheld⟩)
  · exact hrest _

end

/-! ### Every command answers -/

theorem endLoad_pending (image : List Byte) (s : State) : (endLoad image s).pending = s.pending := by
  unfold endLoad
  split
  · split
    · simp [failLoad]
    · simp [beginRunning, beginReception, takeImage]
  · rfl


/-- Settles O1: the queue with a command in front is the one that `step` takes apart. -/
theorem stepTakesTheFrontCommand : Obligations.StepTakesTheFrontCommand := by
  intro c rest s
  rfl

/-- Settles O2: each meaning ends in a next state, and none of the acts it is made of writes the waiting commands. -/
theorem everyCommandAnswersAndLeavesTheQueue : Obligations.EveryCommandAnswersAndLeavesTheQueue := by
  have held (f : State → State) (s : State) (h : (f s).pending = s.pending) :
      ∃ t, unlessHeld f s = .next t ∧ t.pending = s.pending :=
    ⟨_, rfl, unlessHeld_keeps (P := fun t => t.pending = s.pending) rfl rfl fun _ => h⟩
  have running (f : State → State) (s : State) (h : (f s).pending = s.pending) :
      ∃ t, whenRunning f s = .next t ∧ t.pending = s.pending :=
    ⟨_, rfl, whenRunning_keeps (P := fun t => t.pending = s.pending) rfl rfl fun _ => h⟩
  have port (f : State → State) (s : State) (h : (f s).pending = s.pending) :
      ∃ t, atPort f s = .next t ∧ t.pending = s.pending :=
    ⟨_, rfl, atPort_keeps (P := fun t => t.pending = s.pending) rfl rfl fun _ => h⟩
  have runningPort (f : State → State) (s : State) (h : (f s).pending = s.pending) :
      ∃ t, atRunningPort f s = .next t ∧ t.pending = s.pending :=
    ⟨_, rfl, atRunningPort_keeps (P := fun t => t.pending = s.pending) rfl (fun _ => rfl) fun _ => h⟩
  intro c s
  cases c with
  | powerOn => exact ⟨_, rfl, rfl⟩
  | resetPinAssert => exact ⟨_, rfl, rfl⟩
  | resetPinRelease => exact ⟨_, rfl, by simp [releaseReset, startAll, apply_ite State.pending]⟩
  | restartStart => exact held _ s (by simp [restartNow, startAll, apply_ite State.pending])
  | loadComplete image => exact held _ s (endLoad_pending image.toList s)
  | status => exact port _ s rfl
  | events => exact port _ s rfl
  | transactionAbandoned => exact ⟨_, rfl, rfl⟩
  | backoffExpiry => exact running _ s (by simp [apply_ite State.pending])
  | bitBoundary => exact held _ s (by simp [apply_ite State.pending])
  | cueSample _ _ _ _ _ | ageStep | lineIdle | strayCharacter _ _ | badLengthCharacter _ _
  | discardedAssembly _ _ | claimFrame _ | releaseFrame _ | lapseFrame _ | presenceFrame _ | nameFrame _ | frameSent
  | collision _ _ | referenceEdge | referenceGap | returnComplete | cellBegin | lineBusy | startCharacter
  | assemblyCharacter _ _ | characterReadBack => exact held _ s (by simp)
  | claimLifetimeExpiry _ _ | endingTailExpiry _ _ | localRefresh _ | releaseRepeat _ | guardTimerExpiry
  | peerDeadlineReached _ | periodicPresence | downshiftTest | nameRepeat | assemblyAbandoned | backoffSlot =>
    exact running _ s (by simp)
  | restart => exact port _ s rfl
  | unknownCommand code => exact port (refuseCode code) s (by simp)
  | claims => exact runningPort _ s rfl
  | peers => exact runningPort (fun s => portReturns (Reply.accepted.code :: peersReport s) (clearPeerCounts s)) s rfl
  | cueHistory =>
    exact runningPort (fun s => portReturns (Reply.accepted.code :: historyReport s) (mapChannels Channel.reported s)) s rfl
  | setName _ | manualCueStart | manualCueStop | manualCueUnknown _ | clear =>
    exact runningPort _ s (by simp)

/-! ### Steps that take no command -/

theorem step_of_idle {s : State} (h : s.pending = []) (hd : nextDue s = none) : step s = .next (passTime s) := by
  simp [step, idleStep, h, hd]

/-- What every command keeps, and with it the writing of the waiting commands and the passing of time, every step keeps. -/
theorem step_keeps {P : State → Prop} (hexec : ∀ c s t, P s → exec c s = .next t → P t)
    (hpending : ∀ l s, P s → P (s.setPending l)) (htime : ∀ s, P s → P (passTime s)) :
    ∀ s t, P s → step s = .next t → P t := by
  intro s t h e
  unfold step at e
  split at e
  · exact hexec _ _ _ (hpending _ _ h) e
  · unfold idleStep at e
    split at e
    · exact hexec _ _ _ h e
    · cases e
      exact htime s h

/-- Settles O3: `passTime` is the middle of the bit while it is due, and otherwise one increase of station time. -/
theorem idleStepCountsStationTime : Obligations.IdleStepCountsStationTime := by
  refine ⟨fun s hp hn hr hl hb => ?_, fun s hp hn hr hl => ?_⟩
  · have hdue : midBitDue s = true := by simp [midBitDue, State.onBackup, hr, hl, hb]
    rw [step_of_idle hp hn, passTime, if_pos hdue, midBit]
  · have hdue : midBitDue s = false := by rcases hl with hl | hl <;> simp [midBitDue, State.onBackup, hl]
    have hpass : passTime s = s.setClock (s.clock.advance s.running) := by simp [passTime, hdue, tick, hr]
    rw [step_of_idle hp hn, hpass]
    constructor
    · intro hlt
      simp [Clock.advance, Config.intervalsPerSecond, hlt]
    · intro hle
      simp [Clock.advance, Config.intervalsPerSecond, Nat.not_lt.2 hle]

end Sys2Proof.Machine
end
section
/-! What every command keeps: a predicate that each act of the list `KeptByActs` keeps is kept by every command and every step. The
list names the acts that the meanings are made of, with what is known where they are taken; `KeptLoosely` is a shorter list for a
predicate that looks at no more of the Claim Table than the ranges of its entries, and at neither the slot nor the cue sources. -/

namespace Sys2Proof.Machine

/-- The counted fields of a peer lie in their ranges. -/
def PeerRanges (p : Peer) : Prop := p.framesHeard ≤ 65535 ∧ p.absences ≤ 255

/-- The link counters lie in their ranges. -/
def CounterRanges (c : LinkCounters) : Prop := ∀ n ∈ c.all, n ≤ 65535

/-- The counted fields of the Reference Monitor lie in their ranges. -/
structure ReferenceRanges (m : ReferenceMonitor) : Prop where
  gap : m.gapTimer ≤ 5
  stable : m.stableTimer ≤ 2000
  backup : m.backupSeconds ≤ 65535

/-- The timers of the Presence Scheduler lie in their ranges. -/
structure PresenceRanges (p : Presence) : Prop where
  downshift : p.downshiftTimer ≤ 540
  presence : p.presenceTimer ≤ 60

/-- The configured off counts lie in their range. -/
def OffCountRanges (cfg : Settings) : Prop := ∀ src ∈ cfg.sources.toList, 1 ≤ src.nOff ∧ src.nOff ≤ 64

/-- The acts outside the Claim Table and the cue sources that a frame, an entry or a cue can bring keep `P`. -/
structure KeptByLink (P : State → Prop) : Prop where
  clock : ∀ c s, (s.clock.phase < 50 → c.phase < 50) → P s → P (s.setClock c)
  post : ∀ k a b c s, P s → P (postEvent k a b c s)
  returns : ∀ bytes s, P s → P (portReturns bytes s)
  count : ∀ f s, (CounterRanges s.rx.counters → CounterRanges (f s.rx.counters)) → P s → P (countLink f s)
  offer : ∀ b s, s.running = true → b.printable → P s → P (offer b s)
  presence : ∀ p s, (PresenceRanges s.presence → PresenceRanges p) → P s → P (s.setPresence p)
  pendingName : ∀ n s, printableOnly n.text → P s → P (s.setNames { s.names with pendingName := some n })
  applied : ∀ n s, s.names.pendingName = some n → P s →
    P (s.setNames { s.names with applied := n, pendingName := none, repeatTimer := 0 })
  display : ∀ s, P s → P (s.setCells { s.cells with displayText := chooseText s })
  cells : ∀ c s, c.displayText = s.cells.displayText → (s.cells.burst ≤ 3 → c.burst ≤ 3) → P s → P (s.setCells c)
  reference : ∀ m s, (ReferenceRanges s.reference → ReferenceRanges m) → P s → P (s.setReference m)
  receiver : ∀ r s, r.counters = s.rx.counters → (ReceiverSound s → ReceiverSound (s.setRx r)) → P s → P (s.setRx r)
  peer : ∀ p f s, (∀ q, PeerRanges q → PeerRanges (f q)) → P s → P (updatePeer p f s)
  tableCounts : ∀ c s, c.entries = s.claims.entries → (s.claims.stale ≤ 65535 → c.stale ≤ 65535) →
    (s.claims.outside ≤ 65535 → c.outside ≤ 65535) → P s → P (s.setClaims c)

/-- The starts, the transmitter's own acts and what one command alone does keep `P`. -/
structure KeptByCommands (P : State → Prop) : Prop where
  pending : ∀ l s, P s → P (s.setPending l)
  powerOn : ∀ s, P (powerOn s)
  assertReset : ∀ s, P s → P (assertReset s)
  releaseReset : ∀ s, P s → P (releaseReset s)
  restartNow : ∀ s, s.loader.resetHeld = false → P s → P (restartNow s)
  endLoad : ∀ image s, s.loader.resetHeld = false → P s → P (endLoad image s)
  takeEvents : ∀ s, P s → P (takeEvents s)
  takeRestart : ∀ s, P s → P (takeRestart s)
  countSecond : ∀ s, P s → P (countSecond s)
  repeatName : ∀ s, s.running = true → P s → P (repeatName s)
  setName : ∀ text s, s.running = true → P s → P (setProgrammeName text s)
  countSlot : ∀ s, P s → P (countSlot s)
  beginAttempt : ∀ s, P s → P (beginAttempt s)
  endAttempt : ∀ s, P s → P (endAttempt s)
  nextCharacter : ∀ a b s, s.tx.sending = some a → P s → P (s.setTx { s.tx with sending := some b })
  leaveHead : ∀ s, s.loader.resetHeld = false → P s → P (leaveHead s)
  raiseAttempt : ∀ f q s, s.tx.queue = f :: q → f.attempt < 5 → P s → P (drawBackoff (raiseAttempt s))
  clearQueue : ∀ s, P s → P (clearQueue s)
  clearPeerCounts : ∀ s, P s → P (clearPeerCounts s)
  guard : ∀ s, P s → P (s.setSelector { s.selector with guard := none })

/-! ### The link counters -/

theorem inc16_le (n : Nat) : inc16 n ≤ 65535 := by
  unfold inc16 satInc
  split <;> omega

theorem counterRanges_iff (c : LinkCounters) : CounterRanges c ↔
    c.framesAccepted ≤ 65535 ∧ c.framesSent ≤ 65535 ∧ c.stray ≤ 65535 ∧ c.truncated ≤ 65535 ∧ c.framing ≤ 65535
    ∧ c.badCrc ≤ 65535 ∧ c.unknownKind ≤ 65535 ∧ c.malformed ≤ 65535 ∧ c.duplicateStation ≤ 65535 ∧ c.collisions ≤ 65535
    ∧ c.framesDropped ≤ 65535 := by
  simp [CounterRanges, LinkCounters.all]

/-- An entry keeps its identity, its claim, its candidacy and its state. -/
structure Entry.SameClaim (e x : Entry) : Prop where
  key : x.key = e.key
  isLocal : x.isLocal = e.isLocal
  areas : x.areas = e.areas
  candidate : x.candidate = e.candidate
  state : x.state = e.state

/-- Every act of a command keeps `P`. -/
structure KeptByActs (P : State → Prop) : Prop extends KeptByLink P where
  select : ∀ s, s.running = true → P s → P (select s)
  endEntry : ∀ k cause s, s.running = true → P s → P (endEntry k cause s)
  entry : ∀ k f s, (∀ e : Entry, e.SameClaim (f e)) →
    ((∀ e ∈ s.claims.entries, EntryRanges e) → ∀ e ∈ s.claims.entries, EntryRanges (f e)) → P s → P (updateEntry k f s)
  agedEntries : ∀ s, P s →
    P (setEntries (s.claims.entries.map fun e => if e.stepped s.clock.secondCount then e.aged s.settings else e) s)
  freeEnded : ∀ o s, s.running = true → P s →
    P (Machine.select (setEntries (s.claims.entries.filter fun e => !(e.origin == o && !e.live)) s))
  freeTail : ∀ k s, s.running = true → P s → P (freeTail k s)
  createLocal : ∀ c s, s.running = true → P s → P (createLocal c s).1
  considerClaim : ∀ o n cls areas label k s, s.running = true → o ≠ s.settings.station → k ≤ 255 →
    (∀ e, s.entry (o, n) = some e → e.live = false) → P s → P (considerClaim o n cls areas label k s)
  clearTable : ∀ s, s.running = true → P s → P (clearTable s)
  inputs : ∀ v s, P s → P (s.setCues { s.cues with inputs := v })
  manual : ∀ m n s, P s → P (s.setCues { s.cues with manual := m, manualNumber := n })
  channel : ∀ c f s,
    (ChannelSound s.cues.channels[c] → ChannelSound (f s.cues.channels[c])) →
    (OffCountRanges s.settings → ChannelRanges s.cues.channels[c] → ChannelRanges (f s.cues.channels[c])) →
    P s → P (updateChannel c f s)
  channels : ∀ f s, (∀ ch, ChannelSound ch → ChannelSound (f ch)) → (∀ ch, ChannelRanges ch → ChannelRanges (f ch)) → P s →
    P (mapChannels f s)
  endCue : ∀ c above s, s.running = true → s.cues.channels[c].state = .active → P s →
    P (endCue c (updateChannel c (Channel.countOff above) s))

/-- The acts that stand for the Claim Table, the slot and the cue sources keep `P`. -/
structure KeptLoosely (P : State → Prop) : Prop extends KeptByLink P where
  entries : ∀ l s, ((∀ e ∈ s.claims.entries, EntryRanges e) → ∀ e ∈ l, EntryRanges e) → P s → P (setEntries l s)
  selector : ∀ x s, P s → P (s.setSelector x)
  cues : ∀ x s, P s → P (s.setCues x)

theorem State.running_congr {s t : State} (h : t.loader = s.loader) (hr : s.running = true) : t.running = true := by
  simpa [State.running, h] using hr

theorem runState_of_running {s : State} (h : s.running = true) : s.loader.runState = .running := (State.running_iff.1 h).1

theorem free_of_running {s : State} (h : s.running = true) : s.loader.resetHeld = false := (State.running_iff.1 h).2

/-! ### Acts of the Presence Scheduler, the names and the cells -/

namespace KeptByLink
variable {P : State → Prop} (K : KeptByLink P)
include K

theorem offerPresence {s : State} (hr : s.running = true) (h : P s) : P (offerPresence s) :=
  K.offer _ _ hr (fun _ _ => nofun) (K.presence _ _ (fun hp => ⟨hp.downshift, Nat.zero_le _⟩) h)

theorem activity {s : State} (hr : s.running = true) (h : P s) : P (activity s) :=
  K.offerPresence hr (K.presence _ _ (fun hp => ⟨Nat.zero_le _, hp.presence⟩) h)

theorem periodicPresence {s : State} (hr : s.running = true) (h : P s) : P (periodicPresence s) := by
  unfold Machine.periodicPresence
  split
  · exact K.offerPresence hr (K.presence _ _ (fun hp => ⟨hp.downshift, hp.presence⟩) h)
  · exact h

theorem downshiftTest {s : State} (hr : s.running = true) (h : P s) : P (downshiftTest s) := by
  unfold Machine.downshiftTest
  split
  · have hset := K.presence { s.presence with downshiftDue := false } s (fun hp => ⟨hp.downshift, hp.presence⟩) h
    dsimp only
    split
    · exact hset
    · exact K.offerPresence hr (K.presence _ _ (fun hp => ⟨Nat.zero_le _, hp.presence⟩) hset)
  · exact h

theorem applyName {s : State} (hr : s.running = true) (h : P s) : P (applyName s) := by
  unfold Machine.applyName
  split
  · exact h
  · next n hn => exact K.activity (State.running_congr (by simp) hr) (K.post _ _ _ _ _ (K.applied n s hn h))

theorem putCell (cell : BitVec 40) {s : State} (h : P s) : P (putCell cell s) := K.cells _ _ rfl id h

theorem midBit {s : State} (h : P s) : P (midBit s) := K.cells _ _ rfl id h

theorem cycleStart {s : State} (hr : s.running = true) (h : P s) : P (cycleStart s) :=
  K.display _ (K.applyName hr h)

theorem beginCell {s : State} (h : P s) : P (beginCell s) := by
  unfold Machine.beginCell nextRunningCell
  split
  · next hr =>
    have hr : s.running = true := (Bool.and_eq_true_iff.1 hr).1
    split
    · exact K.putCell _ (K.cells _ _ rfl (fun hb => (Nat.sub_le _ _).trans hb) h)
    · refine K.putCell _ (K.cells _ _ rfl id ?_)
      split
      · exact K.cycleStart hr h
      · exact h
  · exact K.putCell _ h

theorem bitBoundary {s : State} (h : P s) : P (bitBoundary s) := by
  unfold Machine.bitBoundary
  split
  · exact h
  · have hmid := K.midBit h
    dsimp only
    split
    · exact K.cells _ _ rfl id hmid
    · split <;> exact K.cells _ _ rfl id hmid

theorem cellBoundary {s : State} (h : P s) : P (cellBoundary s) := by
  unfold Machine.cellBoundary
  split
  · split
    · exact K.post _ _ _ _ _ (K.cells _ _ rfl id (K.reference _ _ (fun hm => ⟨hm.gap, Nat.zero_le _, hm.backup⟩) h))
    · exact K.beginCell h
  · exact h

/-! ### The Reference Monitor -/

theorem endAwait {s : State} (h : P s) : P (endAwait s) :=
  K.cells _ _ rfl id (K.reference _ _ (fun hm => ⟨hm.gap, hm.stable, hm.backup⟩) h)

theorem referenceEdge {s : State} (h : P s) : P (referenceEdge s) := by
  have hseen : P (s.setReference { s.reference with gapTimer := 0, present := true }) :=
    K.reference _ _ (fun hm => ⟨Nat.zero_le _, hm.stable, hm.backup⟩) h
  unfold Machine.referenceEdge
  dsimp only
  split
  · split
    · exact K.endAwait (K.reference _ _ (fun hm => ⟨hm.gap, hm.stable, hm.backup⟩) hseen)
    · have hcount : P ((s.setReference { s.reference with gapTimer := 0, present := true }).setReference
          { s.reference with gapTimer := 0, present := true, phaseCount := s.reference.phaseCount + 1 }) :=
        K.reference _ _ (fun hm => ⟨hm.gap, hm.stable, hm.backup⟩) hseen
      split
      · exact K.bitBoundary hcount
      · split
        · exact K.midBit hcount
        · exact hcount
  · exact K.reference _ _ (fun hm => ⟨hm.gap, Nat.zero_le _, hm.backup⟩) hseen
  · exact hseen
  · exact hseen

theorem loseReference {s : State} (h : P s) : P (loseReference s) := by
  have hlost := K.post .referenceLost (countByte s.cells.position.val) (countByte s.cells.burst) 0 _
    (K.reference { s.reference with state := .lost, backupSeconds := 0 } s (fun hm => ⟨hm.gap, hm.stable, Nat.zero_le _⟩) h)
  unfold Machine.loseReference
  dsimp only
  split
  · exact K.endAwait hlost
  · exact K.bitBoundary hlost

theorem referenceGap {s : State} (h : P s) : P (referenceGap s) := by
  have hgap : P (s.setReference { s.reference with gapTimer := Config.gapMilliseconds, present := false }) :=
    K.reference _ _ (fun hm => ⟨Nat.le_refl 5, hm.stable, hm.backup⟩) h
  unfold Machine.referenceGap
  dsimp only
  split
  · exact K.loseReference hgap
  · exact K.reference _ _ (fun hm => ⟨hm.gap, Nat.zero_le _, hm.backup⟩) hgap
  · exact hgap
  · exact hgap

theorem returnComplete {s : State} (h : P s) : P (returnComplete s) := by
  unfold Machine.returnComplete
  split
  · have hstable : P (s.setReference { s.reference with stableTimer := Config.stableMilliseconds }) :=
      K.reference _ _ (fun hm => ⟨hm.gap, Nat.le_refl 2000, hm.backup⟩) h
    dsimp only
    split <;> exact K.reference _ _ (fun hm => ⟨hm.gap, hm.stable, hm.backup⟩) hstable
  · exact h

theorem clearReference {s : State} (h : P s) : P (clearReference s) := by
  unfold Machine.clearReference
  split
  · exact K.reference _ _ (fun hm => ⟨hm.gap, Nat.zero_le _, hm.backup⟩) h
  · exact h

/-! ### The passing of time -/

theorem passTime {s : State} (h : P s) : P (passTime s) := by
  unfold Machine.passTime tick
  split
  · exact K.midBit h
  · split
    · exact h
    · refine K.clock _ _ (fun hp => ?_) h
      unfold Clock.advance
      split
      · next hlt => exact hlt
      · exact Nat.zero_lt_succ 49

/-! ### The link counters and the receiver -/

theorem countMalformed {s : State} (h : P s) : P (countMalformed s) := by
  refine K.count _ _ (fun hc => ?_) h
  simp_all [counterRanges_iff, inc16_le]

theorem setLine (l : LineState) {s : State} (h : P s) : P (setLine l s) := by
  unfold Machine.setLine
  split
  · exact K.receiver _ _ rfl id h
  · exact h

theorem rxWaitIdle {s : State} (h : P s) : P (rxWaitIdle s) :=
  K.receiver _ _ rfl (fun _ => ⟨rfl, rfl, rfl⟩) h

end KeptByLink

end Sys2Proof.Machine
end
section
/-! What every command keeps, from the acts that it is made of. -/

namespace Sys2Proof.Machine

/-! ### The receiver between its states -/

theorem ReceiverSound.of_assembling_none {s : State} (hs : s.rx.state = .assembling) (hl : s.rx.length = none)
    (h : ReceiverSound s) : s.rx.buffer = [] := by simpa [ReceiverSound, hs, hl] using h

theorem ReceiverSound.of_assembling_some {s : State} {l : Byte} (hs : s.rx.state = .assembling) (hl : s.rx.length = some l)
    (h : ReceiverSound s) : 3 ≤ l.toNat ∧ l.toNat ≤ 20 ∧ s.rx.buffer.length < l.toNat + 2 := by
  simpa [ReceiverSound, hs, hl] using h

theorem ReceiverSound.of_waitIdle {s : State} (hs : s.rx.state = .waitIdle) (h : ReceiverSound s) :
    s.rx.length = none ∧ s.rx.buffer = [] ∧ s.rx.framing = false ∧ s.rx.own = false := by
  cases hl : s.rx.length <;> simp_all [ReceiverSound]

/-! ### Frames that pass the checks -/

theorem judgeAssembly_accepted {own l kind origin mark : Byte} {buffer payload : List Byte} {framing : Bool}
    (h : judgeAssembly own l buffer framing = .accepted kind origin mark payload) : origin ≠ own := by
  simp only [judgeAssembly] at h
  split at h
  · cases h
  · split at h
    · cases h
    · split at h
      · cases h
      · split at h
        · cases h
        · split at h
          · cases h
          · split at h
            · cases h
            · next hown =>
              injection h with _ ho
              exact ho ▸ hown

theorem nextStage_le {cfg : Settings} {fired n : Nat} {st : Stage} (h : nextStage cfg fired = some (n, st)) : n ≤ 4 := by
  have hmem : n ∈ [1, 2, 3, 4] := (List.of_mem_zip (List.mem_of_find?_eq_some h)).1
  simp only [List.mem_cons, List.not_mem_nil, or_false] at hmem
  omega

theorem State.mem_of_entry {s : State} {k : Byte × Byte} {e : Entry} (h : s.entry k = some e) : e ∈ s.claims.entries :=
  List.mem_of_find?_eq_some h

namespace KeptByLink
variable {P : State → Prop} (K : KeptByLink P)
include K

theorem abandonAssembly {s : State} (h : P s) : P (abandonAssembly s) := by
  unfold Machine.abandonAssembly
  split
  · split
    · exact K.rxWaitIdle h
    · refine K.count _ _ (fun hc => ?_) (K.rxWaitIdle h)
      simp_all [counterRanges_iff, inc16_le]
  · exact h
  · exact h

theorem becomeIdle {s : State} (h : P s) : P (becomeIdle s) := by
  unfold Machine.becomeIdle
  dsimp only
  split
  · next hw =>
    refine K.receiver _ _ rfl (fun hs => ?_) (K.setLine .idle h)
    simpa [ReceiverSound, (hs.of_waitIdle hw.2).1] using (hs.of_waitIdle hw.2).2
  · exact K.setLine .idle h

theorem hearDuplicate (kind mark : Byte) {s : State} (h : P s) : P (hearDuplicate kind mark s) := by
  have hcount : P (countLink (fun c => { c with duplicateStation := inc16 c.duplicateStation }) s) := by
    refine K.count _ _ (fun hc => ?_) h
    simp_all [counterRanges_iff, inc16_le]
  unfold Machine.hearDuplicate
  dsimp only
  split
  · exact K.post _ _ _ _ _ (K.receiver _ _ rfl id hcount)
  · exact hcount

theorem noteEnded (o n : Byte) {s : State} (h : P s) : P (noteEnded o n s) := K.peer _ _ _ (fun _ hq => hq) h

theorem takePresence (o : Byte) (level : QuietLevel) (fp : Half) {s : State} (h : P s) : P (takePresence o level fp s) := by
  have hpeer := K.peer o (fun p => { p with
      level := level, deadline := some (s.clock.after (3 * level.period)), fingerprint := some fp,
      fingerprintMatch := some (fp == s.settings.fingerprint) }) s (fun _ hq => hq) h
  unfold Machine.takePresence
  dsimp only
  split
  · exact K.post _ _ _ _ _ hpeer
  · exact hpeer

theorem presencePayload (o : Byte) (payload : List Byte) {s : State} (h : P s) : P (presencePayload o payload s) := by
  unfold Machine.presencePayload
  split
  · exact K.countMalformed h
  · exact K.takePresence _ _ _ h

theorem countStale {s : State} (h : P s) : P (countStale s) := K.tableCounts _ _ rfl (fun _ => inc16_le _) id h

theorem countOutside {s : State} (h : P s) : P (countOutside s) := K.tableCounts _ _ rfl id (fun _ => inc16_le _) h

theorem clearCounters {s : State} (h : P s) : P (clearCounters s) :=
  K.tableCounts _ _ rfl (fun _ => Nat.zero_le _) (fun _ => Nat.zero_le _)
    (K.count (fun _ => countersAtStart) s (fun _ n hn => by simp [LinkCounters.all, countersAtStart] at hn; omega) h)

end KeptByLink

theorem printable_range (c : Byte) : 0x20 ≤ (printable c).toNat ∧ (printable c).toNat ≤ 0x7E := by
  unfold printable
  split
  · assumption
  · decide

theorem printableOnly_printableText (t : Text) : printableOnly (printableText t) := by
  intro c hc
  obtain ⟨d, _, rfl⟩ : ∃ d ∈ t.toList, printable d = c := by simpa [printableText] using hc
  exact printable_range d

/-- An entry that counts as absent is in ENDING. -/
theorem entry_of_not_absent {s : State} {k : Byte × Byte} (h : (s.entry k).filter (fun e => !e.countsAsAbsent) = none) :
    ∀ e, s.entry k = some e → e.live = false := by
  intro e he
  simp only [he, Option.filter_eq_none_iff, Option.some.injEq] at h
  have := h e rfl
  simp [Entry.countsAsAbsent] at this
  simp [Entry.live, this.1]

namespace KeptByActs
variable {P : State → Prop} (K : KeptByActs P)
include K

/-! ### Frames of the peers -/

theorem endWaitingOf (o : Byte) (cause : EndCause) (fuel : Nat) {s : State} (hr : s.running = true) (h : P s) :
    P (endWaitingOf o cause fuel s) := by
  induction fuel generalizing s with
  | zero => exact h
  | succ n ih =>
    unfold Machine.endWaitingOf
    split
    · exact h
    · exact ih (State.running_congr (by simp) hr) (K.endEntry _ _ _ hr h)

theorem endAllOf (o : Byte) (cause : EndCause) {s : State} (hr : s.running = true) (h : P s) : P (endAllOf o cause s) := by
  have hwaiting := K.endWaitingOf o cause s.claims.entries.length hr h
  unfold Machine.endAllOf
  dsimp only
  split
  · exact hwaiting
  · exact K.endEntry _ _ _ (State.running_congr (by simp) hr) hwaiting

theorem restartOrigin (o : Byte) {s : State} (hr : s.running = true) (h : P s) : P (restartOrigin o s) := by
  unfold Machine.restartOrigin
  dsimp only
  split
  · exact K.endAllOf _ _ (State.running_congr (by simp) hr) (K.freeEnded o s hr h)
  · exact K.endAllOf _ _ hr h

theorem compareMark (o mark : Byte) {s : State} (hr : s.running = true) (h : P s) : P (compareMark o mark s) := by
  unfold Machine.compareMark
  split
  · exact K.peer _ _ _ (fun _ hq => hq) h
  · split
    · exact h
    · exact K.peer _ _ _ (fun _ hq => hq) (K.restartOrigin o hr h)

theorem hearPeer (o mark kind : Byte) {s : State} (hr : s.running = true) (h : P s) : P (hearPeer o mark kind s) := by
  have hheard := K.peer o (Peer.heard s.clock) s (fun q hq => ⟨inc16_le _, hq.2⟩) h
  unfold Machine.hearPeer
  dsimp only
  split
  · exact K.compareMark _ _ (State.running_congr (by simp) hr) (K.post _ _ _ _ _ hheard)
  · exact K.compareMark _ _ (State.running_congr (by simp) hr) hheard

theorem losePeer (station : Byte) {s : State} (hr : s.running = true) (h : P s) : P (losePeer station s) := by
  refine K.post _ _ _ _ _ (K.endAllOf _ _ (State.running_congr (by simp) hr) (K.peer _ _ _ (fun q hq => ⟨hq.1, ?_⟩) h))
  show satInc 255 q.absences ≤ 255
  unfold satInc
  split <;> omega

theorem testDeadline (station : Byte) {s : State} (hr : s.running = true) (h : P s) : P (testDeadline station s) := by
  unfold Machine.testDeadline
  split
  · exact K.losePeer _ hr h
  · exact h

/-! ### Frames of a claim -/

theorem refreshEntry (e : Entry) (cls : ClaimClass) (areas label : Byte) {k : Nat} (hk : k ≤ 255) {s : State} (h : P s) :
    P (refreshEntry e cls areas label k s) := by
  have hentry := K.entry e.key (fun x => { x with
      lastRefresh := some s.clock.stationTime, refreshCount := k,
      mismatchReported := x.mismatchReported || mismatchMask e cls areas label != 0 }) s
    (fun _ => ⟨rfl, rfl, rfl, rfl, rfl⟩)
    (fun he x hx => { he x hx with refreshCount := hk }) h
  unfold Machine.refreshEntry
  dsimp only
  split
  · exact K.post _ _ _ _ _ hentry
  · exact hentry

theorem takeClaim (o n : Byte) (cls : ClaimClass) (areas label : Byte) {k : Nat} (hk : k ≤ 255) {s : State}
    (hr : s.running = true) (ho : o ≠ s.settings.station) (h : P s) : P (takeClaim o n cls areas label k s) := by
  unfold Machine.takeClaim
  split
  · split
    · exact K.refreshEntry _ _ _ _ hk h
    · exact K.countStale h
  · next hnone =>
    split
    · exact K.countStale h
    · exact K.considerClaim _ _ _ _ _ _ _ hr ho hk (entry_of_not_absent hnone) h

theorem claimPayload (o : Byte) (payload : List Byte) {s : State} (hr : s.running = true) (ho : o ≠ s.settings.station)
    (h : P s) : P (claimPayload o payload s) := by
  unfold Machine.claimPayload
  split
  · exact K.countMalformed h
  · split
    · exact K.countMalformed h
    · exact K.takeClaim _ _ _ _ _ (Nat.le_of_lt_succ (byteAt payload 4).isLt) hr ho h

theorem releasePayload (o : Byte) (payload : List Byte) {s : State} (hr : s.running = true) (h : P s) :
    P (releasePayload o payload s) := by
  unfold Machine.releasePayload takeRelease
  split
  · exact K.countMalformed h
  · split
    · split
      · exact K.endEntry _ _ _ hr h
      · exact h
    · exact K.noteEnded _ _ h

theorem lapsePayload (o : Byte) (payload : List Byte) {s : State} (hr : s.running = true) (h : P s) :
    P (lapsePayload o payload s) := by
  unfold Machine.lapsePayload takeLapse
  split
  · exact K.countMalformed h
  · split
    · split
      · exact K.post _ _ _ _ _ (K.endEntry _ _ _ hr h)
      · exact h
    · split
      · exact h
      · exact K.noteEnded _ _ h

theorem namePayload (o : Byte) (payload : List Byte) {s : State} (h : P s) : P (namePayload o payload s) := by
  unfold Machine.namePayload
  dsimp only
  split
  · exact K.pendingName _ _ (printableOnly_printableText _) h
  · exact h

theorem dispatchFrame (kind o mark : Byte) (payload : List Byte) {s : State} (hr : s.running = true)
    (ho : o ≠ s.settings.station) (h : P s) : P (dispatchFrame kind o mark payload s) := by
  have hcount : P (countLink (fun c => { c with framesAccepted := inc16 c.framesAccepted }) (Machine.hearPeer o mark kind s)) := by
    refine K.count _ _ (fun hc => ?_) (K.hearPeer o mark kind hr h)
    simp_all [counterRanges_iff, inc16_le]
  have hr' := State.running_congr (s := s)
    (t := countLink (fun c => { c with framesAccepted := inc16 c.framesAccepted }) (Machine.hearPeer o mark kind s))
    (by simp) hr
  unfold Machine.dispatchFrame
  dsimp only
  split
  · exact K.presencePayload _ _ hcount
  · split
    · exact K.claimPayload _ _ hr' (by simpa using ho) hcount
    · split
      · exact K.releasePayload _ _ hr' hcount
      · split
        · exact K.lapsePayload _ _ hr' hcount
        · exact K.namePayload _ _ hcount

/-! ### Characters -/

theorem completeAssembly (l : Byte) (buffer : List Byte) (framing : Bool) {s : State} (hr : s.running = true) (h : P s) :
    P (completeAssembly l buffer framing s) := by
  unfold Machine.completeAssembly
  split
  · refine K.count _ _ (fun hc => ?_) h
    simp_all [counterRanges_iff, inc16_le]
  · refine K.count _ _ (fun hc => ?_) h
    simp_all [counterRanges_iff, inc16_le]
  · refine K.count _ _ (fun hc => ?_) h
    simp_all [counterRanges_iff, inc16_le]
  · exact K.countMalformed h
  · exact K.hearDuplicate _ _ h
  · next hj => exact K.dispatchFrame _ _ _ _ hr (judgeAssembly_accepted hj) h

theorem assemble (c : Byte) (framingError own : Bool) {s : State} (hr : s.running = true) (hs : s.rx.state = .assembling)
    (h : P s) : P (assemble c framingError own s) := by
  unfold Machine.assemble
  dsimp only
  split
  · next hl =>
    split
    · split
      · exact K.rxWaitIdle h
      · exact K.countMalformed (K.rxWaitIdle h)
    · next hc =>
      refine K.receiver _ _ rfl (fun hsound => ?_) h
      have hbuffer := hsound.of_assembling_none hs hl
      simp only [ReceiverSound, State.setRx_rx, hs, hbuffer, List.length_nil]
      omega
  · next l hl =>
    split
    · next hlt =>
      refine K.receiver _ _ rfl (fun hsound => ?_) h
      have hlength := hsound.of_assembling_some hs hl
      simp only [ReceiverSound, State.setRx_rx, hs, hl]
      exact ⟨hlength.1, hlength.2.1, hlt⟩
    · split
      · exact K.rxWaitIdle h
      · exact K.completeAssembly _ _ _ (State.running_congr (by simp) hr) (K.rxWaitIdle h)

theorem receiveRunning (c : Byte) (framingError own : Bool) {s : State} (hr : s.running = true) (h : P s) :
    P (receiveRunning c framingError own s) := by
  unfold Machine.receiveRunning
  split
  · exact h
  · split
    · exact K.receiver _ _ rfl (fun _ => rfl) h
    · refine K.count _ _ (fun hc => ?_) (K.rxWaitIdle h)
      simp_all [counterRanges_iff, inc16_le]
  · next hs => exact K.assemble _ _ _ hr hs h

theorem receiveCharacter (c : Byte) (framingError own : Bool) {s : State} (h : P s) :
    P (receiveCharacter c framingError own s) := by
  unfold Machine.receiveCharacter
  dsimp only
  split
  · next hr => exact K.receiveRunning _ _ _ hr (K.setLine .busy h)
  · exact K.setLine .busy h

end KeptByActs
end Sys2Proof.Machine
end
section
/-! What every command keeps: the cue sources, the transmitter, the age step and the site port, and with them every command. -/

namespace Sys2Proof.Machine

/-! ### The moves of a channel -/

theorem ChannelSound.closed_of_not_active {ch : Channel} (h : ChannelSound ch) (hs : ch.state ≠ .active) :
    ∀ r ∈ ch.history, r.isOpen = false := fun r hr => Bool.eq_false_iff.2 fun ho => hs (h.openActive r hr ho)

/-- A channel whose records are all closed is sound in any state but ACTIVE, with no number. -/
theorem ChannelSound.of_closed {ch : Channel} (hroom : ch.history.length ≤ 8) (hclosed : ∀ r ∈ ch.history, r.isOpen = false)
    (hended : ∀ r ∈ ch.history, r.stop.isNone = r.isOpen) (hnumber : ch.number.isSome = (ch.state == .active))
    (hstart : ch.runStart.isSome = (ch.state == .run)) : ChannelSound ch where
  room := hroom
  openNewest := fun r hr => hclosed r (List.mem_of_mem_dropLast hr)
  openActive := fun r hr ho => by simp [hclosed r hr] at ho
  ended := hended
  number := hnumber
  runStart := hstart

theorem ChannelSound.startRun {ch : Channel} (h : ChannelSound ch) (now : Time) (high : Bool) (hs : ch.state = .idle) :
    ChannelSound (ch.startRun now high) :=
  .of_closed h.room (h.closed_of_not_active (by simp [hs])) h.ended
    (by rw [show (ch.startRun now high).number = ch.number from rfl, h.number, hs]; rfl) rfl

theorem ChannelSound.countRun {ch : Channel} (h : ChannelSound ch) (high : Bool) : ChannelSound (ch.countRun high) :=
  { h with }

theorem ChannelSound.countOff {ch : Channel} (h : ChannelSound ch) (above : Bool) : ChannelSound (ch.countOff above) :=
  { h with }

theorem ChannelSound.toIdle {ch : Channel} (h : ChannelSound ch) (hs : ch.state ≠ .active) : ChannelSound ch.toIdle :=
  .of_closed h.room (h.closed_of_not_active hs) h.ended rfl rfl

/-- Closing the open record leaves no record open. -/
theorem Channel.closeRecord_isOpen {ch : Channel} {stop : Time} {outcome : RunOutcome} (ho : outcome ≠ .opened) :
    ∀ r ∈ (ch.closeRecord stop outcome).history, r.isOpen = false := by
  intro r hr
  obtain ⟨q, _, rfl⟩ : ∃ q ∈ ch.history,
      (if q.outcome == .opened then { q with stop := some stop, outcome := outcome } else q) = r := by
    simpa [Channel.closeRecord] using hr
  split <;> simp_all [HistoryRecord.isOpen]

theorem ChannelSound.closeRecord_ended {ch : Channel} (h : ChannelSound ch) (stop : Time) {outcome : RunOutcome}
    (ho : outcome ≠ .opened) : ∀ r ∈ (ch.closeRecord stop outcome).history, r.stop.isNone = r.isOpen := by
  intro r hr
  obtain ⟨q, hq, rfl⟩ : ∃ q ∈ ch.history,
      (if q.outcome == .opened then { q with stop := some stop, outcome := outcome } else q) = r := by
    simpa [Channel.closeRecord] using hr
  split
  · simp [HistoryRecord.isOpen, ho]
  · exact h.ended q hq

theorem ChannelSound.closeRecord_room {ch : Channel} (h : ChannelSound ch) (stop : Time) (outcome : RunOutcome) :
    (ch.closeRecord stop outcome).history.length ≤ 8 :=
  (List.length_map _).trans_le h.room

/-- A channel whose cue has ended: its open record is closed and it is IDLE. -/
theorem ChannelSound.closeRecord_toIdle {ch : Channel} (h : ChannelSound ch) (stop : Time) {outcome : RunOutcome}
    (ho : outcome ≠ .opened) : ChannelSound (ch.closeRecord stop outcome).toIdle :=
  .of_closed (h.closeRecord_room stop outcome) (Channel.closeRecord_isOpen ho) (h.closeRecord_ended stop ho) rfl rfl

theorem ChannelSound.lost {ch : Channel} (h : ChannelSound ch) (stop : Time) {outcome : RunOutcome}
    (ho : outcome ≠ .opened) (hs : ch.state = .active) :
    ChannelSound { ch.closeRecord stop outcome with state := .blocked, number := none, offCount := 0 } :=
  .of_closed (h.closeRecord_room stop outcome) (Channel.closeRecord_isOpen ho) (h.closeRecord_ended stop ho) rfl
    (by rw [show (ch.closeRecord stop outcome).runStart = ch.runStart from rfl, h.runStart, hs]; rfl)

theorem ChannelSound.writeRecord_room {ch : Channel} (h : ChannelSound ch) (r : HistoryRecord) :
    (ch.writeRecord r).history.length ≤ 8 := by
  unfold Channel.writeRecord
  split
  · next hlt => exact (List.length_append.trans (congrArg _ List.length_singleton)).trans_le hlt
  · exact h.room

/-- Every record is an old one or the one written. -/
theorem Channel.mem_writeRecord {ch : Channel} {r q : HistoryRecord} (h : q ∈ (ch.writeRecord r).history) :
    q ∈ ch.history ∨ q = r := by
  unfold Channel.writeRecord at h
  split at h
  · simpa using h
  · exact .inl h

theorem ChannelSound.refused {ch : Channel} (h : ChannelSound ch) (now : Time) (hs : ch.state = .run) :
    ChannelSound (ch.refused now) := by
  have hclosed := h.closed_of_not_active (by simp [hs])
  refine .of_closed (h.writeRecord_room _) (fun q hq => ?_) (fun q hq => ?_) rfl rfl <;>
    rcases Channel.mem_writeRecord hq with hq | rfl
  · exact hclosed q hq
  · rfl
  · exact h.ended q hq
  · rfl

theorem ChannelSound.created {ch : Channel} (h : ChannelSound ch) (now : Time) (number : Byte) (hs : ch.state = .run) :
    ChannelSound (ch.created now number) where
  room := h.writeRecord_room _
  openNewest := by
    have hclosed := h.closed_of_not_active (by simp [hs])
    intro q hq
    simp only [Channel.created, Channel.writeRecord] at hq
    split at hq
    · exact hclosed q (by simpa using hq)
    · exact hclosed q (List.mem_of_mem_dropLast hq)
  openActive := fun _ _ _ => rfl
  ended := fun q hq => by
    rcases Channel.mem_writeRecord hq with hq | rfl
    · exact h.ended q hq
    · rfl
  number := rfl
  runStart := rfl

/-- The closed records are all but the newest, so that at most one record stays. -/
theorem ChannelSound.reported {ch : Channel} (h : ChannelSound ch) : ChannelSound ch.reported where
  room := (List.length_filter_le _ _).trans h.room
  openNewest := by
    intro r hr
    rcases List.eq_nil_or_concat ch.history with hnil | ⟨l, x, hl⟩
    · simp [Channel.reported, hnil] at hr
    · have hempty : l.filter (fun r => r.outcome == .opened) = [] := by
        rw [List.filter_eq_nil_iff]
        intro q hq
        have := h.openNewest q (by simpa [hl] using hq)
        simpa [HistoryRecord.isOpen] using this
      have hsub := List.mem_of_mem_dropLast hr
      simp only [Channel.reported, hl, List.concat_eq_append, List.filter_append, hempty, List.nil_append] at hr
      cases hx : x.outcome == .opened <;> simp [hx] at hr
  openActive := fun r hr => h.openActive r (List.mem_of_mem_filter hr)
  ended := fun r hr => h.ended r (List.mem_of_mem_filter hr)
  number := h.number
  runStart := h.runStart


/-! ### Writes of a channel -/

@[simp] theorem updateChannel_channel (c : Fin 4) (f : Channel → Channel) (s : State) :
    (updateChannel c f s).cues.channels[c] = f s.cues.channels[c] := by
  simp [updateChannel]

theorem updateChannel_updateChannel (c : Fin 4) (f g : Channel → Channel) (s : State) :
    updateChannel c g (updateChannel c f s) = updateChannel c (g ∘ f) s := by
  simp [updateChannel]

theorem ChannelRanges.startRun {ch : Channel} (h : ChannelRanges ch) (now : Time) (high : Bool) :
    ChannelRanges (ch.startRun now high) where
  runLength := by simp [Channel.startRun]
  highCount := by
    simp only [Channel.startRun]
    split <;> omega
  offCount := h.offCount

theorem satInc_le {top n : Nat} : satInc top n ≤ top := by
  unfold satInc
  split <;> omega

theorem ChannelRanges.countRun {ch : Channel} (h : ChannelRanges ch) (high : Bool) : ChannelRanges (ch.countRun high) where
  runLength := satInc_le
  highCount := by
    simp only [Channel.countRun]
    split
    · exact satInc_le
    · exact h.highCount
  offCount := h.offCount

theorem channelRanges_toIdle (ch : Channel) : ChannelRanges ch.toIdle :=
  ⟨Nat.zero_le _, Nat.zero_le _, Nat.zero_le _⟩

/-- An off count that has not reached Noff is below its highest value. -/
theorem ChannelRanges.countOff {ch : Channel} {src : SourceConfig} (h : ChannelRanges ch) {above : Bool} (hsrc : src.nOff ≤ 64)
    (hlt : ¬ src.nOff ≤ (ch.countOff above).offCount) : ChannelRanges (ch.countOff above) :=
  ⟨h.runLength, h.highCount, (Nat.le_of_lt (Nat.not_le.1 hlt)).trans hsrc⟩

theorem OffCountRanges.le {cfg : Settings} (h : OffCountRanges cfg) (c : Fin 5) : (cfg.sources[c]).nOff ≤ 64 :=
  (h _ (by simp)).2

theorem createLocal_cues (c : Fin 5) (s : State) : (createLocal c s).1.cues = s.cues := by simp

theorem activity_cues (s : State) : (activity s).cues = s.cues := by simp

theorem offer_claims (b : FrameBody) (s : State) : (offer b s).claims = s.claims := by simp

theorem pass_loader (keys : List (Byte × Byte)) (s : State) :
    (keys.foldl (fun s k => supervise 4 k s) s).loader = s.loader := (pass_keeps keys s).2.1

namespace KeptByActs
variable {P : State → Prop} (K : KeptByActs P)
include K

/-! ### The cue sources -/

theorem requestClaim (c : Fin 4) {s : State} (hr : s.running = true) (hc : s.cues.channels[c].state = .run) (h : P s) :
    P (requestClaim c s) := by
  have hmade := K.createLocal c.castSucc s hr h
  have hcues := createLocal_cues c.castSucc s
  unfold Machine.requestClaim
  split
  · next t number heq =>
    rw [heq] at hmade hcues
    have hstate : t.cues.channels[c].state = .run := by rw [hcues, hc]
    exact K.channel _ _ _ (fun hs => hs.created _ _ hstate)
      (fun _ _ => ⟨Nat.zero_le _, Nat.zero_le _, Nat.zero_le _⟩) hmade
  · next t heq =>
    rw [heq] at hmade hcues
    have hstate : t.cues.channels[c].state = .run := by rw [hcues, hc]
    exact K.post _ _ _ _ _ (K.channel _ _ _ (fun hs => hs.refused _ hstate)
      (fun _ _ => ⟨Nat.zero_le _, Nat.zero_le _, Nat.zero_le _⟩) hmade)

theorem validateRun (c : Fin 4) {s : State} (hr : s.running = true) (hc : s.cues.channels[c].state = .run) (h : P s) :
    P (validateRun c s) := by
  unfold Machine.validateRun
  split
  · exact K.requestClaim c hr hc h
  · exact h

theorem sampleEnabled (c : Fin 4) (v : Byte) {s : State} (hr : s.running = true) (h : P s) : P (sampleEnabled c v s) := by
  unfold Machine.sampleEnabled
  dsimp only
  split
  · next hs =>
    split
    · refine K.validateRun c (State.running_congr (by simp) hr) ?_ (K.activity (State.running_congr (by simp) hr)
        (K.channel c _ s (fun hch => hch.startRun _ _ hs) (fun _ hch => hch.startRun _ _) h))
      rw [activity_cues, updateChannel_channel]
      rfl
    · exact h
  · next hs =>
    split
    · refine K.validateRun c (State.running_congr (by simp) hr) ?_
        (K.channel c _ s (fun hch => hch.countRun _) (fun _ hch => hch.countRun _) h)
      rw [updateChannel_channel]
      exact hs
    · exact K.channel c _ s (fun hch => hch.toIdle (by rw [hs]; decide)) (fun _ _ => channelRanges_toIdle _) h
  · next hs =>
    rw [updateChannel_channel]
    split
    · exact K.endCue c _ s hr hs h
    · next hlt =>
      exact K.channel c _ s (fun hch => hch.countOff _) (fun hcfg hch => hch.countOff (hcfg.le c.castSucc) hlt) h
  · next hs =>
    rw [updateChannel_channel]
    split
    · rw [updateChannel_updateChannel]
      exact K.channel c _ s (fun hch => (hch.countOff _).toIdle (by rw [Channel.countOff, hs]; decide))
        (fun _ _ => channelRanges_toIdle _) h
    · next hlt =>
      exact K.channel c _ s (fun hch => hch.countOff _) (fun hcfg hch => hch.countOff (hcfg.le c.castSucc) hlt) h

theorem sampleChannel (c : Fin 4) (v : Byte) {s : State} (hr : s.running = true) (h : P s) : P (sampleChannel c v s) := by
  unfold Machine.sampleChannel
  split
  · exact h
  · exact K.sampleEnabled c v hr h

theorem takeSamples (values : Vector Byte 4) (order : Fin 24) {s : State} (h : P s) : P (takeSamples values order s) := by
  have hinputs := K.inputs values s h
  unfold Machine.takeSamples
  dsimp only
  split
  · next hr =>
    have hr : s.running = true := (Bool.and_eq_true_iff.1 hr).1
    have hclock := K.clock { s.clock with sampleDue := false } (s.setCues { s.cues with inputs := values }) id hinputs
    refine (List.foldlRecOn (motive := fun s => s.running = true ∧ P s) (channelOrder order) _
      ⟨State.running_congr (by simp) hr, hclock⟩ fun t ht c _ => ?_).2
    exact ⟨State.running_congr (by simp) ht.1, K.sampleChannel c _ ht.1 ht.2⟩
  · exact hinputs

theorem manualCue (parameter : Byte) {s : State} (hr : s.running = true) (h : P s) : P (manualCue parameter s) := by
  have hactive := K.activity hr h
  have hr' : (Machine.activity s).running = true := State.running_congr (by simp) hr
  unfold Machine.manualCue manualStart manualStop
  dsimp only
  split
  · split
    · exact K.returns _ _ hactive
    · split
      · exact K.returns _ _ hactive
      · have hmade := K.createLocal 4 _ hr' hactive
        split
        · next heq =>
          rw [heq] at hmade
          exact K.returns _ _ (K.manual _ _ _ hmade)
        · next heq =>
          rw [heq] at hmade
          exact K.returns _ _ hmade
  · split
    · split
      · exact K.returns _ _ hactive
      · refine K.returns _ _ (K.manual _ _ _ ?_)
        split
        · exact hactive
        · exact K.endEntry _ _ _ hr' hactive
    · exact K.returns _ _ hactive

/-! ### The age step -/

theorem stageAction (cfg : Settings) (action : OverrunAction) (stage : Nat) (e : Entry) {s : State} (hr : s.running = true)
    (h : P s) : P (stageAction cfg action stage e s) := by
  unfold Machine.stageAction
  split
  · exact h
  · exact h
  · exact K.entry _ _ _ (fun _ => ⟨rfl, rfl, rfl, rfl, rfl⟩)
      (fun he x hx => { he x hx with demotions := satInc_le, score := Settings.score_le_255 _ _ _ _ _ _ }) h
  · exact K.endEntry _ _ _ hr h
  · split
    · exact K.endEntry _ _ _ hr h
    · exact K.endEntry _ _ _ (State.running_congr (by simp) hr) (K.post _ _ _ _ _ (K.offer _ _ hr (fun _ _ => nofun) h))

theorem fireStage {stage : Nat} (st : Stage) (e : Entry) {s : State} (hr : s.running = true) (hstage : stage ≤ 4) (h : P s) :
    P (fireStage stage st e s) := by
  have hfired := K.entry e.key (fun x => { x with stagesFired := stage }) s (fun _ => ⟨rfl, rfl, rfl, rfl, rfl⟩)
    (fun he x hx => { he x hx with stagesFired := hstage }) h
  unfold Machine.fireStage
  dsimp only
  split
  · exact K.stageAction _ _ _ _ (State.running_congr (by simp) hr) hfired
  · exact K.stageAction _ _ _ _ (State.running_congr (by simp) hr) (K.post _ _ _ _ _ hfired)

theorem supervise (fuel : Nat) (k : Byte × Byte) {s : State} (hr : s.running = true) (h : P s) : P (supervise fuel k s) := by
  induction fuel generalizing s with
  | zero => exact h
  | succ n ih =>
    unfold Machine.supervise
    split
    · exact h
    · split
      · exact h
      · split
        · exact h
        · next hnext =>
          split
          · exact h
          · exact ih (State.running_congr (by simp) hr) (K.fireStage _ _ hr (nextStage_le hnext) h)

theorem ageEntries {s : State} (hr : s.running = true) (h : P s) : P (ageEntries s) := by
  have haged := K.agedEntries s h
  unfold Machine.ageEntries
  refine K.select _ (State.running_congr (pass_loader _ _) (State.running_congr (by simp) hr)) ?_
  refine (List.foldlRecOn (motive := fun s => s.running = true ∧ P s) _ _ ⟨State.running_congr (by simp) hr, haged⟩
    fun t ht k _ => ?_).2
  exact ⟨State.running_congr (by simp) ht.1, K.supervise 4 k ht.1 ht.2⟩

/-! ### The claims by name -/

theorem expireClaim (k : Byte × Byte) {s : State} (hr : s.running = true) (h : P s) : P (expireClaim k s) := by
  unfold Machine.expireClaim
  split
  · exact h
  · split
    · exact K.endEntry _ _ _ hr h
    · exact h

theorem refreshLocal (n : Byte) {s : State} (hr : s.running = true) (h : P s) : P (refreshLocal n s) := by
  unfold Machine.refreshLocal
  dsimp only
  split
  · exact h
  · split
    · exact K.entry _ _ _ (fun _ => ⟨rfl, rfl, rfl, rfl, rfl⟩) (fun he x hx => { he x hx with refreshCount := satInc_le })
        (K.offer _ _ hr (fun _ _ => nofun) h)
    · exact h

theorem repeatRelease (n : Byte) {s : State} (hr : s.running = true) (h : P s) : P (repeatRelease n s) := by
  unfold Machine.repeatRelease
  dsimp only
  split
  · exact h
  · next e he =>
    split
    · split
      · exact h
      · next left hleft =>
        refine K.entry _ _ _ (fun _ => ⟨rfl, rfl, rfl, rfl, rfl⟩) (fun hrange x hx => ?_)
          (K.offer _ _ hr (fun _ _ => nofun) h)
        rw [offer_claims] at hrange hx
        have hle : left ≤ 2 := (hrange e (State.mem_of_entry he)).repeatsLeft left hleft
        exact { hrange x hx with repeatsLeft := fun m hm => by cases hm; omega }
    · exact h

end KeptByActs

/-! ### Ending an entry, in parts -/

/-- Who is told that the entry `e` has ended: its cue source and the line, or the last ended number of its origin (R14, R22). -/
def tellEnding (e : Entry) (cause : EndCause) (s : State) : State :=
  if e.isLocal then cueNotice e.source cause (offer (.release e.number 0) s)
  else if cause = .restarted then s
  else noteEnded e.origin e.number s

/-- The slot behind the ending of `e`: emptied of it and filled again, or a selection run (R51). -/
def refillSlot (e : Entry) (s : State) : State :=
  if e.state = .onAir then fillSlot e.origin true (s.setSelector { s.selector with onAir := none }) else select s

/-- R14, R22, R51: the ending of a live entry. -/
theorem endEntry_of_live {k : Byte × Byte} {cause : EndCause} {s : State} {e : Entry} (h : s.entry k = some e)
    (hl : e.live = true) : endEntry k cause s =
      refillSlot e (activity (tellEnding e cause (updateEntry k (Entry.ended cause s.clock.stationTime) s))) := by
  unfold endEntry
  rw [h]
  simp only [hl, Bool.not_true, Bool.false_eq_true, if_false]
  rfl

theorem endEntry_cases (k : Byte × Byte) (cause : EndCause) (s : State) :
    endEntry k cause s = s ∨ ∃ e, s.entry k = some e ∧ e.live = true ∧ endEntry k cause s =
      refillSlot e (activity (tellEnding e cause (updateEntry k (Entry.ended cause s.clock.stationTime) s))) := by
  by_cases h : ∃ e, s.entry k = some e ∧ e.live = true
  · obtain ⟨e, he, hl⟩ := h
    exact .inr ⟨e, he, hl, endEntry_of_live he hl⟩
  · refine .inl (endEntry_none k cause s fun e he => ?_)
    simpa [Entry.live] using fun hl => h ⟨e, he, hl⟩

@[simp] theorem tellEnding_keeps (e : Entry) (cause : EndCause) (s : State) :
    (tellEnding e cause s).pending = s.pending ∧ (tellEnding e cause s).loader = s.loader ∧
    (tellEnding e cause s).clock = s.clock ∧ (tellEnding e cause s).settings = s.settings ∧
    (tellEnding e cause s).claims = s.claims ∧ (tellEnding e cause s).selector = s.selector ∧
    (tellEnding e cause s).presence = s.presence ∧ (tellEnding e cause s).names = s.names ∧
    (tellEnding e cause s).cells = s.cells ∧ (tellEnding e cause s).reference = s.reference := by
  unfold tellEnding
  (repeat' split) <;> simp

theorem makeRoom_loader {takes : Entry → Bool} {s t : State} (h : makeRoom takes s = some t) : t.loader = s.loader := by
  rcases makeRoom_eq _ _ _ h with rfl | ⟨k, rfl⟩ <;> simp

/-! ### The loose acts -/

namespace KeptLoosely
variable {P : State → Prop} (K : KeptLoosely P)
include K

theorem removeEntry (k : Byte × Byte) {s : State} (h : P s) : P (removeEntry k s) :=
  K.entries _ _ (fun hl e he => hl e (List.mem_of_mem_filter he)) h

theorem updateEntry (k : Byte × Byte) (f : Entry → Entry) {s : State}
    (hf : (∀ e ∈ s.claims.entries, EntryRanges e) → ∀ e ∈ s.claims.entries, EntryRanges (f e)) (h : P s) :
    P (updateEntry k f s) := by
  refine K.entries _ _ (fun hl x hx => ?_) h
  obtain ⟨e, he, rfl⟩ := List.mem_map.1 hx
  split
  · exact hf hl e he
  · exact hl e he

theorem setEntryState (k : Byte × Byte) (st : EntryState) {s : State} (h : P s) : P (setEntryState k st s) :=
  K.updateEntry k _ (fun he x hx => { he x hx with }) h

theorem onAirChange (old : Byte) (new : Option Entry) {s : State} (hr : s.running = true) (h : P s) :
    P (onAirChange old new s) := by
  have hburst := fun x => K.cells { s.cells with burst := 3 } (s.setSelector x) rfl (fun _ => Nat.le_refl 3) (K.selector x s h)
  unfold Machine.onAirChange
  dsimp only
  split
  · exact K.activity (State.running_congr (by simp) hr) (K.post _ _ _ _ _ (hburst _))
  · exact K.activity (State.running_congr (by simp) hr) (K.post _ _ _ _ _ (hburst _))

theorem fillSlot (old : Byte) (changed : Bool) {s : State} (hr : s.running = true) (h : P s) : P (fillSlot old changed s) := by
  unfold Machine.fillSlot
  split
  · exact K.onAirChange _ _ (State.running_congr (by simp) hr) (K.setEntryState _ _ h)
  · split
    · exact K.onAirChange _ _ hr h
    · exact h

theorem select {s : State} (hr : s.running = true) (h : P s) : P (select s) := by
  rcases select_spec s with heq | ⟨x, _, _, heq⟩ | ⟨k, x, y, _, _, _, _, _, heq⟩ <;> rw [heq]
  · exact h
  · exact K.onAirChange _ _ (State.running_congr (by simp) hr) (K.setEntryState _ _ h)
  · exact K.onAirChange _ _ (State.running_congr (by simp) hr) (K.setEntryState _ _ (K.setEntryState _ _ h))

theorem cueNotice (source : Option (Fin 5)) (cause : EndCause) {s : State} (h : P s) : P (cueNotice source cause s) := by
  unfold Machine.cueNotice
  (repeat' split)
  · exact h
  · exact h
  · exact K.cues _ _ h
  · exact h
  · exact K.cues _ _ h

theorem tellEnding (e : Entry) (cause : EndCause) {s : State} (hr : s.running = true) (h : P s) :
    P (tellEnding e cause s) := by
  unfold Machine.tellEnding
  split
  · exact K.cueNotice _ _ (K.offer _ _ hr (fun _ _ => nofun) h)
  · split
    · exact h
    · exact K.noteEnded _ _ h

theorem refillSlot (e : Entry) {s : State} (hr : s.running = true) (h : P s) : P (refillSlot e s) := by
  unfold Machine.refillSlot
  split
  · exact K.fillSlot _ _ hr (K.selector _ _ h)
  · exact K.select hr h

theorem endEntry (k : Byte × Byte) (cause : EndCause) {s : State} (hr : s.running = true) (h : P s) :
    P (endEntry k cause s) := by
  rcases endEntry_cases k cause s with heq | ⟨e, _, _, heq⟩ <;> rw [heq]
  · exact h
  · have hended := K.updateEntry k (Entry.ended cause s.clock.stationTime)
      (fun he x hx => { he x hx with
        repeatsLeft := fun n hn => by simp only [Entry.ended] at hn; split at hn <;> simp_all }) h
    exact K.refillSlot e (State.running_congr (by simp) hr)
      (K.activity (State.running_congr (by simp) hr) (K.tellEnding e cause (State.running_congr (by simp) hr) hended))

theorem admitEntry {e : Entry} {s : State} (he : EntryRanges e) (h : P s) : P (admitEntry e s) := by
  refine K.entries _ _ (fun hl x hx => ?_) h
  rcases List.mem_append.1 hx with hx | hx
  · exact hl x hx
  · rw [List.mem_singleton.1 hx]
    exact he

theorem makeRoom {takes : Entry → Bool} {s t : State} (hmake : makeRoom takes s = some t) (h : P s) : P t := by
  rcases makeRoom_eq _ _ _ hmake with rfl | ⟨k, rfl⟩
  · exact h
  · exact K.removeEntry k h

theorem createLocal (c : Fin 5) {s : State} (hr : s.running = true) (h : P s) : P (createLocal c s).1 := by
  unfold Machine.createLocal
  split
  · exact h
  · next t hmake =>
    have hloader := makeRoom_loader hmake
    have hroom := K.makeRoom hmake h
    have hnumbered := fun k n => K.removeEntry k (K.tableCounts { t.claims with nextNumber := n } t rfl id id hroom)
    refine K.select (State.running_congr (by simp [hloader]) hr) (K.activity (State.running_congr (by simp [hloader]) hr)
      (K.offer _ _ (State.running_congr (by simp [hloader]) hr) (fun _ _ => nofun) (K.admitEntry ?_ (hnumbered _ _))))
    exact ⟨Nat.zero_le _, Nat.zero_le _, Nat.zero_le _, Settings.score_le_255 _ _ _ _ _ _, (by decide : 1 ≤ 255), nofun⟩

theorem considerClaim (o n : Byte) (cls : ClaimClass) (areas label : Byte) {k : Nat} {s : State} (hr : s.running = true)
    (hk : k ≤ 255) (h : P s) : P (considerClaim o n cls areas label k s) := by
  unfold Machine.considerClaim
  split
  · exact K.countOutside h
  · have hfreed := K.removeEntry (o, n) h
    dsimp only
    split
    · exact K.post _ _ _ _ _ hfreed
    · next t hmake =>
      have hloader := makeRoom_loader hmake
      refine K.select (State.running_congr (by simp [hloader]) hr) (K.activity (State.running_congr (by simp [hloader]) hr)
        (K.admitEntry ?_ (K.makeRoom hmake hfreed)))
      exact ⟨Nat.min_le_right _ _, Nat.zero_le _, Nat.zero_le _, Settings.score_le_255 _ _ _ _ _ _, hk, nofun⟩

theorem clearTable {s : State} (h : P s) : P (clearTable s) := by
  have hempty := K.entries [] s (fun _ _ he => absurd he List.not_mem_nil) h
  have hslot := fun x => K.selector x _ hempty
  unfold Machine.clearTable
  exact K.post _ _ _ _ _ (K.cells _ _ rfl (fun _ => Nat.le_refl 3) (hslot _))

theorem agedEntries {s : State} (h : P s) :
    P (setEntries (s.claims.entries.map fun e => if e.stepped s.clock.secondCount then e.aged s.settings else e) s) := by
  refine K.entries _ _ (fun hl x hx => ?_) h
  obtain ⟨e, he, rfl⟩ := List.mem_map.1 hx
  split
  · exact { hl e he with age := satInc_le, score := Settings.score_le_255 _ _ _ _ _ _ }
  · exact hl e he

/-- A predicate that the loose acts keep is kept by every act. -/
theorem acts : KeptByActs P :=
  { K with
    select := fun _ hr h => K.select hr h
    endEntry := fun k cause _ hr h => K.endEntry k cause hr h
    entry := fun k f _ _ hf h => K.updateEntry k f hf h
    agedEntries := fun _ h => K.agedEntries h
    freeEnded := fun _ _ hr h => K.select (State.running_congr (by simp) hr)
      (K.entries _ _ (fun hl e he => hl e (List.mem_of_mem_filter he)) h)
    freeTail := fun k s hr h => by
      unfold Machine.freeTail
      split
      · exact h
      · split
        · exact K.select (State.running_congr (by simp) hr) (K.removeEntry k h)
        · exact h
    createLocal := fun c _ hr h => K.createLocal c hr h
    considerClaim := fun o n cls areas label _ _ hr _ hk _ h => K.considerClaim o n cls areas label hr hk h
    clearTable := fun _ _ h => K.clearTable h
    inputs := fun _ _ h => K.cues _ _ h
    manual := fun _ _ _ h => K.cues _ _ h
    channel := fun _ _ _ _ _ h => K.cues _ _ h
    channels := fun _ _ _ _ h => K.cues _ _ h
    endCue := fun c above s hr _ h => by
      have hcount : P (updateChannel c (Channel.countOff above) s) := K.cues _ _ h
      unfold Machine.endCue
      refine K.cues _ _ ?_
      split
      · exact hcount
      · exact K.endEntry _ _ (State.running_congr (by simp) hr) hcount }

end KeptLoosely

/-- A frame that is not coalesced leaves the attempt on the line, driver enable and the renewal mark. -/
theorem offerFrame_attempt (f : Frame) (s : State) :
    (offerFrame f s).tx.sending = s.tx.sending ∧ (offerFrame f s).tx.driverEnable = s.tx.driverEnable
    ∧ (offerFrame f s).tx.renewal = s.tx.renewal := by
  have hplaced (t : State) := placeFrame_spec f t
  unfold offerFrame
  split
  · exact ⟨(hplaced s).2.2.1, (hplaced s).2.2.2.1, (hplaced s).2.1⟩
  · dsimp only
    split
    · split
      · next g _ =>
        obtain ⟨-, hrenewal, hsending, hdriver, -⟩ :=
          hplaced (frameDropped g.body 0 0 (setQueue (withoutLastOfRank (lowestRank s.tx.queue) s.tx.queue) s))
        rw [hrenewal, hsending, hdriver]
        simp [setQueue]
      · exact ⟨rfl, rfl, rfl⟩
    · simp

/-- An offer leaves the attempt on the line and driver enable. -/
theorem offer_attempt (b : FrameBody) (s : State) :
    (offer b s).tx.sending = s.tx.sending ∧ (offer b s).tx.driverEnable = s.tx.driverEnable := by
  rcases offer_spec b s with h | ⟨_, _, _, _, _, _, _, h⟩ | ⟨_, _, ⟨_, h⟩ | ⟨_, h⟩⟩ <;> rw [h]
  · exact ⟨(offerFrame_attempt _ s).1, (offerFrame_attempt _ s).2.1⟩
  · exact ⟨rfl, rfl⟩
  · exact ⟨rfl, rfl⟩
  · exact ⟨rfl, rfl⟩

/-- The attempt on the line and driver enable are the transmitter's own (R100, R117). -/
theorem keptLoosely_attempt (x : Option Attempt) (d : Bool) :
    KeptLoosely fun s => s.tx.sending = x ∧ s.tx.driverEnable = d where
  clock := fun _ _ _ h => h
  post := fun _ _ _ _ _ h => by simpa using h
  returns := fun _ _ h => h
  count := fun _ _ _ h => h
  offer := fun b s _ _ h => by rwa [(offer_attempt b s).1, (offer_attempt b s).2]
  presence := fun _ _ _ h => h
  pendingName := fun _ _ _ h => h
  applied := fun _ _ _ h => h
  display := fun _ h => h
  cells := fun _ _ _ _ h => h
  reference := fun _ _ _ h => h
  receiver := fun _ _ _ _ h => h
  peer := fun _ _ _ _ h => by simpa using h
  tableCounts := fun _ _ _ _ _ h => h
  entries := fun _ _ _ h => h
  selector := fun _ _ h => h
  cues := fun _ _ h => h

/-! ### The transmitter and the site port -/

theorem KeptByActs.clearAll {P : State → Prop} (K : KeptByActs P) (C : KeptByCommands P) {s : State} (hr : s.running = true)
    (h : P s) : P (clearAll s) := by
  have hqueue : (clearQueue s).running = true ∧ P (clearQueue s) := ⟨State.running_congr (by simp) hr, C.clearQueue s h⟩
  have hreleases : (clearReleases (clearQueue s)).running = true ∧ P (clearReleases (clearQueue s)) :=
    List.foldlRecOn (motive := fun s => s.running = true ∧ P s) _ _ hqueue
      fun t ht e _ => ⟨State.running_congr (by simp) ht.1, K.offer (.release e.number 0) t ht.1 (fun _ _ => nofun) ht.2⟩
  have htable : P (Machine.clearTable (clearReleases (clearQueue s))) := K.clearTable _ hreleases.1 hreleases.2
  have hcues : P (clearCues (Machine.clearTable (clearReleases (clearQueue s)))) :=
    K.manual _ _ _ (K.channels _ _ (fun ch hch => hch.closeRecord_toIdle _ (by decide)) (fun ch _ => channelRanges_toIdle _)
      htable)
  exact K.returns _ _ (K.post _ _ _ _ _ (K.activity (State.running_congr (by simp) hr)
    (K.clearCounters (C.clearPeerCounts _ (K.clearReference hcues)))))

namespace KeptByCommands
variable {P : State → Prop} (C : KeptByCommands P) (K : KeptByActs P)
include C K

theorem afterCollision {s : State} (hr : s.loader.resetHeld = false) (h : P s) : P (afterCollision s) := by
  unfold Machine.afterCollision
  split
  · exact h
  · next f q hq =>
    split
    · next hlt => exact C.raiseAttempt f q s hq hlt h
    · refine C.leaveHead _ (by simpa using hr) (K.count _ _ (fun hc => ?_) (K.post _ _ _ _ _ h))
      simp_all [counterRanges_iff, inc16_le]

theorem readBackEqual (a : Attempt) {s : State} (hr : s.loader.resetHeld = false) (ha : s.tx.sending = some a) (h : P s) :
    P (readBackEqual a s) := by
  have hreceived := K.receiveCharacter (byteAt a.chars a.index) false true h
  have hsending := ((keptLoosely_attempt (some a) s.tx.driverEnable).acts.receiveCharacter
    (byteAt a.chars a.index) false true ⟨ha, rfl⟩).1
  unfold Machine.readBackEqual
  dsimp only
  split
  · exact C.endAttempt _ hreceived
  · split
    · exact C.nextCharacter a _ _ hsending hreceived
    · refine C.leaveHead _ (by simpa using hr) (K.count _ _ (fun hc => ?_) (C.endAttempt _ hreceived))
      simp_all [counterRanges_iff, inc16_le]

theorem collide (a : Attempt) (c : Byte) (framingError : Bool) {s : State} (hr : s.loader.resetHeld = false) (h : P s) :
    P (collide a c framingError s) := by
  have hended := C.endAttempt s h
  unfold Machine.collide
  refine K.receiveCharacter _ _ _ ?_
  split
  · exact hended
  · refine C.afterCollision K (by simpa using hr) (K.count _ _ (fun hc => ?_) hended)
    simp_all [counterRanges_iff, inc16_le]

theorem ownCharacterReturns (value : Option (Byte × Bool)) {s : State} (hr : s.loader.resetHeld = false) (h : P s) :
    P (ownCharacterReturns value s) := by
  unfold Machine.ownCharacterReturns
  split
  · exact h
  · next a ha =>
    split
    · exact C.readBackEqual K a hr ha h
    · split
      · exact C.readBackEqual K a hr ha h
      · exact C.collide K a _ _ hr h

theorem ageStep {s : State} (h : P s) : P (ageStep s) := by
  unfold Machine.ageStep
  split
  · have hcounted := C.countSecond _ (K.clock { s.clock with ageStepDue := false } s id h)
    dsimp only
    split
    · next hr => exact K.ageEntries hr hcounted
    · exact hcounted
  · exact h

theorem expireGuard {s : State} (hr : s.running = true) (h : P s) : P (expireGuard s) := by
  unfold Machine.expireGuard
  split
  · exact K.select _ (State.running_congr (by simp) hr) (C.guard s h)
  · exact h

/-! ### The commands -/

/-- What the acts keep, every command keeps. -/
theorem exec (c : Instr) (s t : State) (h : P s) (e : exec c s = .next t) : P t := by
  cases c with
  | powerOn => cases e; exact C.powerOn s
  | resetPinAssert => cases e; exact C.assertReset s h
  | resetPinRelease => cases e; exact C.releaseReset s h
  | transactionAbandoned => cases e; exact K.returns _ _ h
  | loadComplete image => exact unlessHeld_keeps e h fun hr => C.endLoad _ _ hr h
  | restartStart => exact unlessHeld_keeps e h fun hr => C.restartNow _ hr h
  | cueSample _ _ _ _ _ => exact unlessHeld_keeps e h fun _ => K.takeSamples _ _ h
  | ageStep => exact unlessHeld_keeps e h fun _ => C.ageStep K h
  | lineIdle => exact unlessHeld_keeps e h fun _ => K.becomeIdle h
  | lineBusy => exact unlessHeld_keeps e h fun _ => K.setLine _ h
  | strayCharacter _ _ | badLengthCharacter _ _ | discardedAssembly _ _ | assemblyCharacter _ _ | startCharacter
  | claimFrame _ | releaseFrame _ | lapseFrame _ | presenceFrame _ | nameFrame _ =>
    exact unlessHeld_keeps e h fun _ => K.receiveCharacter _ _ _ h
  | frameSent | characterReadBack | collision _ _ => exact unlessHeld_keeps e h fun hr => C.ownCharacterReturns K _ hr h
  | referenceEdge => exact unlessHeld_keeps e h fun _ => K.referenceEdge h
  | referenceGap => exact unlessHeld_keeps e h fun _ => K.referenceGap h
  | returnComplete => exact unlessHeld_keeps e h fun _ => K.returnComplete h
  | cellBegin => exact unlessHeld_keeps e h fun _ => K.cellBoundary h
  | bitBoundary =>
    refine unlessHeld_keeps e h fun _ => ?_
    split
    · exact K.bitBoundary h
    · exact h
  | claimLifetimeExpiry _ _ => exact whenRunning_keeps e h fun hr => K.expireClaim _ hr h
  | endingTailExpiry _ _ => exact whenRunning_keeps e h fun hr => K.freeTail _ _ hr h
  | localRefresh _ => exact whenRunning_keeps e h fun hr => K.refreshLocal _ hr h
  | releaseRepeat _ => exact whenRunning_keeps e h fun hr => K.repeatRelease _ hr h
  | guardTimerExpiry => exact whenRunning_keeps e h fun hr => C.expireGuard K hr h
  | peerDeadlineReached _ => exact whenRunning_keeps e h fun hr => K.testDeadline _ hr h
  | periodicPresence => exact whenRunning_keeps e h fun hr => K.periodicPresence hr h
  | downshiftTest => exact whenRunning_keeps e h fun hr => K.downshiftTest hr h
  | nameRepeat => exact whenRunning_keeps e h fun hr => C.repeatName _ hr h
  | assemblyAbandoned => exact whenRunning_keeps e h fun _ => K.abandonAssembly h
  | backoffSlot => exact whenRunning_keeps e h fun _ => C.countSlot _ h
  | backoffExpiry =>
    refine whenRunning_keeps e h fun _ => ?_
    split
    · exact C.beginAttempt _ h
    · exact h
  | status => exact atPort_keeps e (K.returns _ _ h) fun _ => K.returns _ _ h
  | events => exact atPort_keeps e (K.returns _ _ h) fun _ => C.takeEvents _ h
  | restart => exact atPort_keeps e (K.returns _ _ h) fun _ => C.takeRestart _ h
  | unknownCommand code =>
    refine atPort_keeps e (K.returns _ _ h) fun _ => ?_
    unfold refuseCode
    split
    · exact h
    · exact K.returns _ _ h
  | claims => exact atRunningPort_keeps e (fun _ => K.returns _ _ h) fun _ => K.returns _ _ h
  | peers =>
    exact atRunningPort_keeps (f := fun s => portReturns (Reply.accepted.code :: peersReport s) (Machine.clearPeerCounts s)) e
      (fun _ => K.returns _ _ h) fun _ => K.returns _ _ (C.clearPeerCounts _ h)
  | cueHistory =>
    refine atRunningPort_keeps (f := fun s => portReturns (Reply.accepted.code :: historyReport s) (mapChannels Channel.reported s))
      e (fun _ => K.returns _ _ h) fun _ => K.returns _ _ (K.channels _ _ (fun _ hch => hch.reported) ?_ h)
    exact fun _ hch => ⟨hch.runLength, hch.highCount, hch.offCount⟩
  | setName _ => exact atRunningPort_keeps e (fun _ => K.returns _ _ h) fun hr => C.setName _ _ hr h
  | manualCueStart | manualCueStop | manualCueUnknown _ =>
    exact atRunningPort_keeps e (fun _ => K.returns _ _ h) fun hr => K.manualCue _ hr h
  | clear => exact atRunningPort_keeps e (fun _ => K.returns _ _ h) fun hr => K.clearAll C hr h

/-- What the acts keep, every step keeps. -/
theorem step : ∀ s t, P s → step s = .next t → P t :=
  step_keeps (fun c s t => C.exec K c s t) C.pending fun _ => K.passTime

end KeptByCommands

end Sys2Proof.Machine
end
section
/-! The receiver stays sound (R102, R103): outside its own acts only its counters change, of which the invariant says nothing. -/

namespace Sys2Proof.Machine

/-! ### What the transmitter's acts do to the receiver -/

theorem placeFrame_rx (f : Frame) (s : State) : (placeFrame f s).rx = s.rx := by simp

theorem placeFrame_port (f : Frame) (s : State) : (placeFrame f s).port = s.port := by simp

theorem postEvent_rx (k : EventKind) (a b c : Byte) (s : State) : (postEvent k a b c s).rx = s.rx := by simp

theorem postEvent_tx (k : EventKind) (a b c : Byte) (s : State) : (postEvent k a b c s).tx = s.tx := by simp

theorem postEvent_loader (k : EventKind) (a b c : Byte) (s : State) : (postEvent k a b c s).loader = s.loader := by simp

theorem frameDropped_rx (b : FrameBody) (x y : Byte) (s : State) :
    (frameDropped b x y s).rx =
      { s.rx with counters := { s.rx.counters with framesDropped := inc16 s.rx.counters.framesDropped } } := by
  simp [frameDropped, countLink]

/-- A frame that is offered changes nothing at the receiver but, when one is shed, the count of dropped frames. -/
theorem offerFrame_rx (f : Frame) (s : State) : ∃ k, (offerFrame f s).rx = { s.rx with counters := k } := by
  unfold offerFrame
  split
  · exact ⟨s.rx.counters, by simp⟩
  · dsimp only
    split
    · split
      · exact ⟨_, (placeFrame_rx _ _).trans (frameDropped_rx _ _ _ _)⟩
      · exact ⟨s.rx.counters, rfl⟩
    · exact ⟨_, frameDropped_rx _ _ _ _⟩

theorem offer_rx (b : FrameBody) (s : State) : ∃ k, (offer b s).rx = { s.rx with counters := k } := by
  rcases offer_spec b s with h | ⟨_, _, _, _, _, _, _, h⟩ | ⟨_, _, ⟨_, h⟩ | ⟨_, h⟩⟩ <;> rw [h]
  · exact offerFrame_rx _ s
  · exact ⟨s.rx.counters, rfl⟩
  · exact ⟨s.rx.counters, rfl⟩
  · exact ⟨s.rx.counters, rfl⟩

theorem offerPresence_rx (s : State) : ∃ k, (offerPresence s).rx = { s.rx with counters := k } := offer_rx _ _

theorem leaveHead_rx (s : State) : ∃ k, (leaveHead s).rx = { s.rx with counters := k } := by
  unfold leaveHead
  split
  · exact ⟨s.rx.counters, rfl⟩
  · next f q _ =>
    dsimp only
    split
    · obtain ⟨k, hk⟩ := offer_rx (ownPresence (drawBackoff (setQueue q s)))
        ((drawBackoff (setQueue q s)).setTx { (drawBackoff (setQueue q s)).tx with renewal := false })
      exact ⟨k, by simpa using hk⟩
    · exact ⟨s.rx.counters, by simp⟩

/-! ### The invariant -/

theorem ReceiverSound.of_counters {s t : State} {k : LinkCounters} (h : t.rx = { s.rx with counters := k })
    (hs : ReceiverSound s) : ReceiverSound t := by
  unfold ReceiverSound at *
  rwa [h]

theorem ReceiverSound.of_rx {s t : State} (h : t.rx = s.rx) (hs : ReceiverSound s) : ReceiverSound t :=
  hs.of_counters (k := s.rx.counters) h

/-- A receiver in WAIT_IDLE with nothing held. -/
theorem receiverSound_empty {s : State} (hstate : s.rx.state = .waitIdle) (hlength : s.rx.length = none)
    (hbuffer : s.rx.buffer = []) (hframing : s.rx.framing = false) (hown : s.rx.own = false) : ReceiverSound s := by
  simp [ReceiverSound, hstate, hlength, hbuffer, hframing, hown]

theorem keptLoosely_receiverSound : KeptLoosely ReceiverSound where
  clock := fun _ _ _ h => h.of_rx rfl
  post := fun _ _ _ _ _ h => h.of_rx (by simp)
  returns := fun _ _ h => h.of_rx rfl
  count := fun _ _ _ h => h.of_counters rfl
  offer := fun b s _ _ h => (offer_rx b s).elim fun _ hk => h.of_counters hk
  presence := fun _ _ _ h => h.of_rx rfl
  pendingName := fun _ _ _ h => h.of_rx rfl
  applied := fun _ _ _ h => h.of_rx rfl
  display := fun _ h => h.of_rx rfl
  cells := fun _ _ _ _ h => h.of_rx rfl
  reference := fun _ _ _ h => h.of_rx rfl
  receiver := fun _ _ _ hr h => hr h
  peer := fun _ _ _ _ h => h.of_rx (by simp)
  tableCounts := fun _ _ _ _ _ h => h.of_rx rfl
  entries := fun _ _ _ h => h.of_rx rfl
  selector := fun _ _ h => h.of_rx rfl
  cues := fun _ _ h => h.of_rx rfl

theorem keptByCommands_receiverSound : KeptByCommands ReceiverSound where
  pending := fun _ _ h => h.of_rx rfl
  powerOn := fun _ => receiverSound_empty rfl rfl rfl rfl rfl
  assertReset := fun _ h => h.of_rx rfl
  releaseReset := fun _ h => by
    unfold releaseReset
    split
    · exact receiverSound_empty rfl rfl rfl rfl rfl
    · exact h
  restartNow := fun _ _ h => by
    unfold restartNow
    split
    · exact receiverSound_empty rfl rfl rfl rfl rfl
    · exact h
  endLoad := fun image s _ h => by
    unfold endLoad
    split
    · split
      · exact h.of_rx (by simp [failLoad])
      · have hbegun (t : State) : ReceiverSound (beginReception t) := receiverSound_empty rfl rfl rfl rfl rfl
        obtain ⟨k, hk⟩ := offerPresence_rx (beginReception ((takeImage image s).setLoader
          { (takeImage image s).loader with runState := .running }))
        exact ((hbegun _).of_counters hk).of_rx (postEvent_rx _ _ _ _ _)
    · exact h
  takeEvents := fun _ h => h.of_rx rfl
  takeRestart := fun _ h => h.of_rx rfl
  countSecond := fun _ h => h.of_rx (by simp)
  repeatName := fun s _ h => by
    unfold repeatName
    split
    · exact (offer_rx _ _).elim fun _ hk => h.of_counters hk
    · exact h
  setName := fun text s _ h => (offer_rx _ _).elim fun _ hk => h.of_counters hk
  countSlot := fun _ h => h.of_rx (by simp)
  beginAttempt := fun s h => by
    unfold beginAttempt
    split
    · exact h
    · exact keptLoosely_receiverSound.setLine _ (h.of_rx rfl)
  endAttempt := fun _ h => h.of_rx rfl
  nextCharacter := fun _ _ _ _ h => h.of_rx rfl
  leaveHead := fun s _ h => (leaveHead_rx s).elim fun _ hk => h.of_counters hk
  raiseAttempt := fun _ _ _ _ _ h => h.of_rx (by simp)
  clearQueue := fun _ h => h.of_rx rfl
  clearPeerCounts := fun _ h => h.of_rx rfl
  guard := fun _ h => h.of_rx rfl

/-- Settles O7: every act keeps the receiver sound. -/
theorem everyStepKeepsTheReceiverSound : Obligations.EveryStepKeepsTheReceiverSound :=
  keptByCommands_receiverSound.step keptLoosely_receiverSound.acts

end Sys2Proof.Machine
end
section
/-! The outgoing queue (R111 to R117): where a frame is placed, what a full queue sheds, and that the queue stays sound. -/

namespace Sys2Proof.Machine

/-! ### Placing a frame (R111) -/

/-- The frames that a frame of this rank is placed behind: the one in transmission and those of its rank and above. -/
def Frame.standsBefore (f g : Frame) : Bool := g.inTransmission || g.body.rank ≤ f.body.rank

theorem insertFrame_eq (f : Frame) (q : List Frame) :
    insertFrame f q = q.takeWhile f.standsBefore ++ f :: q.dropWhile f.standsBefore := by
  induction q with
  | nil => rfl
  | cons g q ih =>
    unfold insertFrame
    by_cases h : f.standsBefore g = true
    · rw [if_pos (by simpa [Frame.standsBefore] using h), ih]
      simp [h]
    · rw [if_neg (by simpa [Frame.standsBefore] using h)]
      simp [h]

theorem insertFrame_perm (f : Frame) (q : List Frame) : (insertFrame f q).Perm (f :: q) := by
  rw [insertFrame_eq]
  exact List.perm_middle.trans (.cons f (.of_eq List.takeWhile_append_dropWhile))

theorem mem_insertFrame {f g : Frame} {q : List Frame} : g ∈ insertFrame f q ↔ g = f ∨ g ∈ q := by
  rw [(insertFrame_perm f q).mem_iff, List.mem_cons]

theorem length_insertFrame (f : Frame) (q : List Frame) : (insertFrame f q).length = q.length + 1 :=
  (insertFrame_perm f q).length_eq

theorem length_filter_insertFrame (p : Frame → Bool) (f : Frame) (q : List Frame) :
    ((insertFrame f q).filter p).length = (if p f then 1 else 0) + (q.filter p).length := by
  rw [((insertFrame_perm f q).filter p).length_eq, List.filter_cons]
  split
  · rw [List.length_cons, Nat.add_comm]
  · rw [Nat.zero_add]

theorem mem_takeWhile_standsBefore {f g : Frame} {q : List Frame} (h : g ∈ q.takeWhile f.standsBefore) :
    g.inTransmission = true ∨ g.body.rank ≤ f.body.rank := by
  simpa [Frame.standsBefore] using List.mem_takeWhile_imp h

/-- In an ordered queue every frame behind the first one that does not stand before `f` is of a lower rank. -/
theorem mem_dropWhile_standsBefore {f g : Frame} {q : List Frame} (ho : queueOrdered q)
    (h : g ∈ q.dropWhile f.standsBefore) : g.inTransmission = false ∧ f.body.rank < g.body.rank := by
  induction q with
  | nil => simp at h
  | cons x q ih =>
    by_cases hx : f.standsBefore x = true
    · rw [List.dropWhile_cons_of_pos hx] at h
      refine ih ⟨fun y hy => ho.1 y (List.mem_of_mem_tail hy), ?_⟩ h
      exact ho.2.sublist ((List.sublist_cons_self x q).filter _)
    · rw [List.dropWhile_cons_of_neg hx] at h
      simp only [Frame.standsBefore, Bool.or_eq_true, decide_eq_true_eq, not_or, Bool.not_eq_true, Nat.not_le] at hx
      rcases List.mem_cons.1 h with rfl | hg
      · exact hx
      · have hfree := ho.1 g hg
        have hpair := ho.2
        rw [List.filter_cons_of_pos (by simp [hx.1])] at hpair
        exact ⟨hfree, hx.2.trans_le ((List.pairwise_cons.1 hpair).1 g (List.mem_filter.2 ⟨hg, by simp [hfree]⟩))⟩

theorem queueOrdered_insertFrame {f : Frame} {q : List Frame} (ho : queueOrdered q) (hf : f.inTransmission = false) :
    queueOrdered (insertFrame f q) := by
  have hafter := fun g hg => mem_dropWhile_standsBefore (f := f) (g := g) ho hg
  have hbefore := fun g hg => mem_takeWhile_standsBefore (f := f) (g := g) (q := q) hg
  have hsplit : q.takeWhile f.standsBefore ++ q.dropWhile f.standsBefore = q := List.takeWhile_append_dropWhile
  rw [insertFrame_eq]
  generalize q.takeWhile f.standsBefore = before at *
  generalize q.dropWhile f.standsBefore = after at *
  subst hsplit
  constructor
  · cases before with
    | nil => exact fun g hg => (hafter g hg).1
    | cons b before =>
      intro g hg
      simp only [List.cons_append, List.tail_cons, List.mem_append, List.mem_cons] at hg
      rcases hg with hg | rfl | hg
      · exact ho.1 g (by simp [hg])
      · exact hf
      · exact ho.1 g (by simp [hg])
  · have hpair := ho.2
    rw [List.filter_append, List.pairwise_append] at hpair
    rw [List.filter_append, List.filter_cons_of_pos (by simp [hf]), List.pairwise_append, List.pairwise_cons]
    refine ⟨hpair.1, ⟨fun g hg => (hafter g (List.mem_of_mem_filter hg)).2.le, hpair.2.1⟩, fun x hx y hy => ?_⟩
    rcases List.mem_cons.1 hy with rfl | hy
    · have hfree := (List.mem_filter.1 hx).2
      exact (hbefore x (List.mem_of_mem_filter hx)).resolve_left (by simpa using hfree)
    · exact hpair.2.2 x hx y hy

/-! ### The full queue (R114) -/

theorem foldl_max_le {l : List Frame} {m r : Nat} (hm : m ≤ r) (h : ∀ g ∈ l, g.body.rank ≤ r) :
    l.foldl (fun m f => max m f.body.rank) m ≤ r := by
  induction l generalizing m with
  | nil => exact hm
  | cons g l ih =>
    exact ih (Nat.max_le.2 ⟨hm, h g (by simp)⟩) fun x hx => h x (by simp [hx])

theorem lowestRank_le {q : List Frame} {r : Nat} (h : ∀ g ∈ q, g.inTransmission = false → g.body.rank ≤ r) :
    lowestRank q ≤ r := by
  refine foldl_max_le (Nat.zero_le r) fun g hg => ?_
  obtain ⟨hg, hfree⟩ := List.mem_filter.1 hg
  exact h g hg (by simpa using hfree)

theorem le_foldl_max (l : List Frame) (m : Nat) : m ≤ l.foldl (fun m f => max m f.body.rank) m := by
  induction l generalizing m with
  | nil => exact Nat.le_refl m
  | cons g l ih => exact (Nat.le_max_left _ _).trans (ih _)

theorem rank_le_foldl_max {l : List Frame} {g : Frame} (h : g ∈ l) (m : Nat) :
    g.body.rank ≤ l.foldl (fun m f => max m f.body.rank) m := by
  induction l generalizing m with
  | nil => cases h
  | cons x l ih =>
    rcases List.mem_cons.1 h with rfl | h
    · exact (Nat.le_max_right _ _).trans (le_foldl_max l _)
    · exact ih h _

theorem rank_le_lowestRank {q : List Frame} {g : Frame} (h : g ∈ q) (hfree : g.inTransmission = false) :
    g.body.rank ≤ lowestRank q :=
  rank_le_foldl_max (List.mem_filter.2 ⟨h, by simp [hfree]⟩) 0

theorem withoutLastOfRank_sublist (r : Nat) (q : List Frame) : (withoutLastOfRank r q).Sublist q := by
  have h := (List.eraseP_sublist (p := fun f : Frame => !f.inTransmission && f.body.rank == r) (l := q.reverse)).reverse
  rwa [List.reverse_reverse] at h

theorem length_withoutLastOfRank {r : Nat} {q : List Frame} {g : Frame} (h : lastOfRank r q = some g) :
    (withoutLastOfRank r q).length + 1 = q.length := by
  have hmem := List.mem_of_find?_eq_some h
  have hp := List.find?_some h
  have hlen := List.length_eraseP_of_mem (p := fun f : Frame => !f.inTransmission && f.body.rank == r) hmem hp
  have hpos := List.length_pos_of_mem hmem
  rw [withoutLastOfRank, List.length_reverse, hlen]
  rw [List.length_reverse] at hpos ⊢
  omega

/-- The last frame of the lowest rank among those not in transmission, with what stands before and behind it. -/
structure LastOfLowest (q before : List Frame) (g : Frame) (after : List Frame) : Prop where
  split : q = before ++ g :: after
  free : g.inTransmission = false
  before : ∀ h ∈ before, h.inTransmission = false → h.body.rank ≤ g.body.rank
  after : ∀ h ∈ after, h.inTransmission = false → h.body.rank < g.body.rank

namespace LastOfLowest
variable {q before after : List Frame} {g : Frame} (h : LastOfLowest q before g after)
include h

theorem lowestRank_eq : lowestRank q = g.body.rank := by
  refine Nat.le_antisymm (lowestRank_le fun x hx hfree => ?_) (rank_le_lowestRank (by simp [h.split]) h.free)
  rw [h.split, List.mem_append, List.mem_cons] at hx
  rcases hx with hx | rfl | hx
  · exact h.before x hx hfree
  · exact Nat.le_refl _
  · exact (h.after x hx hfree).le

theorem after_differs : ∀ x ∈ after.reverse, ¬ (!x.inTransmission && x.body.rank == g.body.rank) = true := by
  intro x hx hp
  simp only [Bool.and_eq_true, Bool.not_eq_true', beq_iff_eq] at hp
  exact absurd (h.after x (List.mem_reverse.1 hx) hp.1) (by omega)

theorem lastOfRank_eq : lastOfRank g.body.rank q = some g := by
  have hnone := List.find?_eq_none.2 h.after_differs
  rw [lastOfRank, h.split, List.reverse_append, List.reverse_cons, List.find?_append, List.find?_append, hnone]
  simp [h.free]

theorem withoutLastOfRank_eq : withoutLastOfRank g.body.rank q = before ++ after := by
  rw [withoutLastOfRank, h.split, List.reverse_append, List.reverse_cons, List.append_assoc,
    List.eraseP_append_right _ h.after_differs, List.singleton_append, List.eraseP_cons_of_pos (by simp [h.free])]
  simp

end LastOfLowest

/-! ### What an offer does to the queue -/

@[simp] theorem drawBackoff_queue (s : State) : (drawBackoff s).tx.queue = s.tx.queue := by
  unfold drawBackoff
  split <;> simp

theorem drawBackoff_attempt (s : State) : (drawBackoff s).tx.sending = s.tx.sending
    ∧ (drawBackoff s).tx.driverEnable = s.tx.driverEnable ∧ (drawBackoff s).tx.renewal = s.tx.renewal := by
  unfold drawBackoff
  split <;> simp

/-- A frame that does not coalesce is placed, placed in the room of a frame that is shed, or shed itself. -/
theorem offerFrame_cases (f : Frame) (s : State) :
    (s.tx.queue.length < 8 ∧ offerFrame f s = placeFrame f s)
    ∨ (∃ (g : Frame) (q : List Frame), q.Sublist s.tx.queue ∧ q.length + 1 = s.tx.queue.length
        ∧ offerFrame f s = placeFrame f (frameDropped g.body 0 0 (setQueue q s)))
    ∨ offerFrame f s = s ∨ offerFrame f s = frameDropped f.body 0 0 s := by
  unfold offerFrame
  split
  · next h => exact .inl ⟨h, rfl⟩
  · dsimp only
    split
    · split
      · next g hg => exact .inr (.inl ⟨g, _, withoutLastOfRank_sublist _ _, length_withoutLastOfRank hg, rfl⟩)
      · exact .inr (.inr (.inl rfl))
    · exact .inr (.inr (.inr rfl))

theorem offerFrame_queue (f : Frame) (s : State) :
    (s.tx.queue.length < 8 ∧ (offerFrame f s).tx.queue = insertFrame f s.tx.queue)
    ∨ (∃ q : List Frame, q.Sublist s.tx.queue ∧ q.length + 1 = s.tx.queue.length
        ∧ (offerFrame f s).tx.queue = insertFrame f q)
    ∨ (offerFrame f s).tx.queue = s.tx.queue := by
  rcases offerFrame_cases f s with ⟨h, heq⟩ | ⟨g, q, hsub, hlen, heq⟩ | heq | heq <;> rw [heq]
  · exact .inl ⟨h, (placeFrame_spec f s).1⟩
  · refine .inr (.inl ⟨q, hsub, hlen, ?_⟩)
    rw [(placeFrame_spec f _).1]
    simp [setQueue]
  · exact .inr (.inr rfl)
  · exact .inr (.inr (by simp))

/-- What holds of every frame of the queue and of the offered one, and is kept where a frame takes a new count or a PRESENCE the new
level, holds of every frame behind an offer. -/
theorem offer_forall {R : Frame → Prop} {b : FrameBody} {s : State} (hown : R (ownFrame s b))
    (hcount : ∀ f k, R f → R (f.withRefreshCount k)) (hbody : ∀ f, f.isPresence = true → R f → R { f with body := b })
    (h : ∀ f ∈ s.tx.queue, R f) : ∀ f ∈ (offer b s).tx.queue, R f := by
  rcases offer_spec b s with heq | ⟨n, _, _, _, k, _, _, heq⟩ | ⟨held, hheld, ⟨_, heq⟩ | ⟨hwait, heq⟩⟩ <;> rw [heq]
  · intro f hf
    rcases offerFrame_queue (ownFrame s b) s with ⟨_, hq⟩ | ⟨q, hsub, _, hq⟩ | hq <;> rw [hq] at hf
    · exact (mem_insertFrame.1 hf).elim (fun e => e ▸ hown) (h f)
    · exact (mem_insertFrame.1 hf).elim (fun e => e ▸ hown) fun hm => h f (hsub.subset hm)
    · exact h f hf
  · intro f hf
    obtain ⟨g, hg, rfl⟩ := List.mem_map.1 hf
    split
    · exact hcount g k (h g hg)
    · exact h g hg
  · exact h
  · intro f hf
    obtain ⟨g, hg, rfl⟩ := List.mem_map.1 hf
    split
    · next hp => exact hbody g hp (h g hg)
    · exact h g hg

/-! ### The order and the shedding of the queue -/

theorem inc16_eq_plusOne (n : Nat) : inc16 n = plusOne n := rfl

theorem frameDropped_events {b : FrameBody} {s : State} (h : s.port.events.length < 16) :
    (frameDropped b 0 0 s).port.events = s.port.events ++ [⟨.frameDropped, s.clock.stationTime, b.kindCode, 0, 0⟩] := by
  simp [frameDropped, (postEvent_spec _ _ _ _ s).1 h]

/-- Settles O44: the place is the one `insertFrame_eq` gives, and the full queue sheds the frame of `LastOfLowest`. -/
theorem queueIsOrderedAndShedsByRank : Obligations.QueueIsOrderedAndShedsByRank := by
  refine ⟨fun f q ho hf => ⟨_, _, List.takeWhile_append_dropWhile.symm, insertFrame_eq f q, queueOrdered_insertFrame ho hf,
    fun g hg => mem_takeWhile_standsBefore hg, fun g hg => mem_dropWhile_standsBefore ho hg⟩, ?_⟩
  intro f s hfull hroom offered
  refine ⟨fun hlow => ?_, fun before after g hsplit hfree hlt hb ha => ?_⟩
  · have hlowest : ¬ f.body.rank < lowestRank s.tx.queue := Nat.not_lt.2 (lowestRank_le hlow)
    have hoffer : offerFrame f s = frameDropped f.body 0 0 s := by
      simp [offerFrame, Config.queueCapacity, hfull, hlowest]
    refine ⟨by simp [hoffer], ?_, ?_⟩ <;> rw [hoffer]
    · exact frameDropped_events hroom
    · rw [frameDropped_rx]
      rfl
  · have hlast : LastOfLowest s.tx.queue before g after := ⟨hsplit, hfree, hb, ha⟩
    have hoffer : offerFrame f s = placeFrame f (frameDropped g.body 0 0 (setQueue (before ++ after) s)) := by
      simp [offerFrame, Config.queueCapacity, hfull, hlast.lowestRank_eq, hlast.lastOfRank_eq, hlast.withoutLastOfRank_eq, hlt]
    refine ⟨?_, ?_, ?_⟩ <;> rw [hoffer]
    · rw [(placeFrame_spec _ _).1]
      simp [setQueue]
    · rw [placeFrame_port, frameDropped_events (by simpa using hroom)]
      simp
    · rw [placeFrame_rx, frameDropped_rx]
      simp [inc16_eq_plusOne]

end Sys2Proof.Machine
end
section
/-! The outgoing queue stays sound (R100, R109, R111 to R119). -/

namespace Sys2Proof.Machine

/-! ### A sound list of frames -/

/-- What `QueueSound` says of the frames alone. -/
structure QueueOk (q : List Frame) : Prop where
  room : q.length ≤ 8
  ordered : queueOrdered q
  coalesced : queueCoalesced q
  attempts : ∀ f ∈ q, 1 ≤ f.attempt ∧ f.attempt ≤ 5

theorem queueOk_nil : QueueOk [] := by
  refine ⟨Nat.zero_le 8, ⟨?_, .nil⟩, ⟨Nat.zero_le 1, fun _ => Nat.zero_le 1⟩, ?_⟩ <;> exact fun _ hf => absurd hf List.not_mem_nil

theorem QueueOk.sublist {p q : List Frame} (h : QueueOk q) (hs : p.Sublist q) : QueueOk p where
  room := hs.length_le.trans h.room
  ordered := ⟨fun f hf => h.ordered.1 f (hs.tail.subset hf), h.ordered.2.sublist (hs.filter _)⟩
  coalesced := ⟨(hs.filter _).length_le.trans h.coalesced.1, fun n => (hs.filter _).length_le.trans (h.coalesced.2 n)⟩
  attempts := fun f hf => h.attempts f (hs.subset hf)

/-- A change that leaves of every frame what the order and the coalescing look at. -/
theorem QueueOk.map {q : List Frame} {g : Frame → Frame} (h : QueueOk q) (hmark : ∀ f, (g f).inTransmission = f.inTransmission)
    (hrank : ∀ f, (g f).body.rank = f.body.rank) (hpresence : ∀ f, (g f).isPresence = f.isPresence)
    (hclaim : ∀ n f, (g f).isWaitingClaim n = f.isWaitingClaim n) (hattempt : ∀ f, (g f).attempt = f.attempt) :
    QueueOk (q.map g) where
  room := (List.length_map g).trans_le h.room
  ordered := by
    refine ⟨fun f hf => ?_, ?_⟩
    · rw [← List.map_tail] at hf
      obtain ⟨x, hx, rfl⟩ := List.mem_map.1 hf
      rw [hmark]
      exact h.ordered.1 x hx
    · rw [List.filter_map, List.pairwise_map]
      simpa [Function.comp_def, hmark, hrank] using h.ordered.2
  coalesced := by
    refine ⟨?_, fun n => ?_⟩ <;> rw [List.filter_map, List.length_map]
    · simpa [Function.comp_def, hpresence] using h.coalesced.1
    · simpa [Function.comp_def, hclaim] using h.coalesced.2 n
  attempts := fun f hf => by
    obtain ⟨x, hx, rfl⟩ := List.mem_map.1 hf
    rw [hattempt]
    exact h.attempts x hx

theorem QueueOk.insertFrame {q : List Frame} {f : Frame} (h : QueueOk q) (hroom : q.length < 8)
    (hfree : f.inTransmission = false) (hattempt : f.attempt = 1) (hpresence : f.isPresence = true → q.filter Frame.isPresence = [])
    (hclaim : ∀ n, f.isWaitingClaim n = true → q.filter (Frame.isWaitingClaim n) = []) : QueueOk (insertFrame f q) where
  room := (length_insertFrame f q).trans_le hroom
  ordered := queueOrdered_insertFrame h.ordered hfree
  coalesced := by
    refine ⟨?_, fun n => ?_⟩ <;> rw [length_filter_insertFrame]
    · split
      · next hp => simp [hpresence hp]
      · simpa using h.coalesced.1
    · split
      · next hc => simp [hclaim n hc]
      · simpa using h.coalesced.2 n
  attempts := fun g hg => by
    rcases mem_insertFrame.1 hg with rfl | hg
    · omega
    · exact h.attempts g hg

/-- The head may begin an attempt or take the next attempt number. -/
theorem QueueOk.head {f g : Frame} {q : List Frame} (h : QueueOk (f :: q)) (hbody : g.body = f.body)
    (hmark : g.inTransmission = true ∨ g.inTransmission = f.inTransmission) (hattempt : 1 ≤ g.attempt ∧ g.attempt ≤ 5) :
    QueueOk (g :: q) := by
  have hq : QueueOk q := h.sublist (List.sublist_cons_self f q)
  have hpresence : g.isPresence = f.isPresence := by simp only [Frame.isPresence, hbody]
  refine ⟨h.room, ⟨h.ordered.1, ?_⟩, ⟨?_, fun n => ?_⟩, fun x hx => ?_⟩
  · rcases hmark with hmark | hmark
    · rw [List.filter_cons_of_neg (by simp [hmark])]
      exact hq.ordered.2
    · have hold := h.ordered.2
      rw [List.filter_cons] at hold ⊢
      rw [hmark]
      split
      · next hfree => rw [if_pos hfree, List.pairwise_cons] at hold; rwa [List.pairwise_cons, hbody]
      · exact hq.ordered.2
  · have hold := h.coalesced.1
    rw [List.filter_cons] at hold ⊢
    rw [hpresence]
    split <;> simp_all
  · have hle : (g.isWaitingClaim n = true) → f.isWaitingClaim n = true := by
      unfold Frame.isWaitingClaim
      rw [hbody]
      rcases hmark with hmark | hmark <;> rw [hmark]
      · split <;> simp
      · exact id
    have hold := h.coalesced.2 n
    rw [List.filter_cons] at hold ⊢
    split
    · next hg => rwa [if_pos (hle hg)] at hold
    · exact hq.coalesced.2 n
  · rcases List.mem_cons.1 hx with rfl | hx
    · exact hattempt
    · exact hq.attempts x hx

/-! ### Offers -/

theorem offerFrame_queueOk {f : Frame} {s : State} (h : QueueOk s.tx.queue) (hfree : f.inTransmission = false)
    (hattempt : f.attempt = 1) (hpresence : f.isPresence = true → s.tx.queue.filter Frame.isPresence = [])
    (hclaim : ∀ n, f.isWaitingClaim n = true → s.tx.queue.filter (Frame.isWaitingClaim n) = []) :
    QueueOk (offerFrame f s).tx.queue := by
  rcases offerFrame_queue f s with ⟨hroom, hq⟩ | ⟨q, hsub, hlen, hq⟩ | hq <;> rw [hq]
  · exact h.insertFrame hroom hfree hattempt hpresence hclaim
  · have hnil {p : Frame → Bool} (he : s.tx.queue.filter p = []) : q.filter p = [] :=
      List.sublist_nil.1 (he ▸ hsub.filter p)
    have hroom := h.room
    exact (h.sublist hsub).insertFrame (by omega) hfree hattempt (fun hp => hnil (hpresence hp)) fun n hc => hnil (hclaim n hc)
  · exact h

theorem Frame.withRefreshCount_inTransmission (f : Frame) (k : Nat) : (f.withRefreshCount k).inTransmission = f.inTransmission := by
  unfold Frame.withRefreshCount
  split <;> rfl

theorem Frame.withRefreshCount_attempt (f : Frame) (k : Nat) : (f.withRefreshCount k).attempt = f.attempt := by
  unfold Frame.withRefreshCount
  split <;> rfl

theorem Frame.withRefreshCount_rank (f : Frame) (k : Nat) : (f.withRefreshCount k).body.rank = f.body.rank := by
  unfold Frame.withRefreshCount
  split
  · next h => rw [h]; rfl
  · rfl

theorem Frame.withRefreshCount_isPresence (f : Frame) (k : Nat) : (f.withRefreshCount k).isPresence = f.isPresence := by
  unfold Frame.withRefreshCount
  split
  · next h => simp [Frame.isPresence, h]
  · rfl

theorem Frame.withRefreshCount_isWaitingClaim (f : Frame) (k : Nat) (n : Byte) :
    (f.withRefreshCount k).isWaitingClaim n = f.isWaitingClaim n := by
  unfold Frame.withRefreshCount
  split
  · next h => simp [Frame.isWaitingClaim, h]
  · rfl

theorem offer_queueOk {b : FrameBody} {s : State} (h : QueueOk s.tx.queue) : QueueOk (offer b s).tx.queue := by
  cases b with
  | claim n cls areas label k =>
    simp only [offer]
    split
    · refine h.map (fun f => ?_) (fun f => ?_) (fun f => ?_) (fun m f => ?_) (fun f => ?_) <;> split
      · exact f.withRefreshCount_inTransmission k
      · rfl
      · exact f.withRefreshCount_rank k
      · rfl
      · exact f.withRefreshCount_isPresence k
      · rfl
      · exact f.withRefreshCount_isWaitingClaim k m
      · rfl
      · exact f.withRefreshCount_attempt k
      · rfl
    · next hnone =>
      refine offerFrame_queueOk h rfl rfl (by simp [Frame.isPresence, ownFrame]) fun m hm => ?_
      have hm : n = m := by simpa [Frame.isWaitingClaim, ownFrame] using hm
      rw [← hm, List.filter_eq_nil_iff]
      simpa using hnone
  | presence level fp =>
    simp only [offer]
    split
    · next hnone =>
      refine offerFrame_queueOk h rfl rfl (fun _ => ?_) (by simp [Frame.isWaitingClaim, ownFrame])
      rw [List.filter_eq_nil_iff]
      simpa using hnone
    · split
      · exact h
      · refine h.map (fun f => ?_) (fun f => ?_) (fun f => ?_) (fun m f => ?_) (fun f => ?_) <;> split
        · rfl
        · rfl
        · next hp => unfold Frame.isPresence at hp; split at hp <;> simp_all [FrameBody.rank]
        · rfl
        · next hp => rw [hp]; rfl
        · rfl
        · next hp => unfold Frame.isPresence at hp; split at hp <;> simp_all [Frame.isWaitingClaim]
        · rfl
        · rfl
        · rfl
  | release _ _ | lapse _ _ | name _ _ =>
    exact offerFrame_queueOk h rfl rfl (by simp [Frame.isPresence, ownFrame]) (by simp [Frame.isWaitingClaim, ownFrame])

/-! ### The invariant -/

theorem queueSound_iff (s : State) : QueueSound s ↔
    QueueOk s.tx.queue ∧ s.tx.driverEnable = s.tx.sending.isSome ∧ (s.loader.runState ≠ .running → s.tx.queue = []) :=
  ⟨fun h => ⟨⟨h.room, h.ordered, h.coalesced, h.attempts⟩, h.driver, h.idle⟩,
   fun ⟨hq, hd, hi⟩ => ⟨hq.room, hq.ordered, hq.coalesced, hq.attempts, hd, hi⟩⟩

theorem QueueSound.queueOk {s : State} (h : QueueSound s) : QueueOk s.tx.queue := ((queueSound_iff s).1 h).1

/-- A change of the queue leaves it sound, where the frames are sound and the attempt and the run state stand. -/
theorem QueueSound.of_queue {s t : State} (h : QueueSound s) (hq : QueueOk t.tx.queue) (hd : t.tx.driverEnable = s.tx.driverEnable)
    (hs : t.tx.sending = s.tx.sending) (hl : t.loader = s.loader) (hi : s.loader.runState ≠ .running → t.tx.queue = []) :
    QueueSound t := (queueSound_iff t).2 ⟨hq, by rw [hd, hs, h.driver], by rwa [hl]⟩

theorem QueueSound.of_eq {s t : State} (h : QueueSound s) (ht : t.tx = s.tx) (hl : t.loader = s.loader) : QueueSound t :=
  h.of_queue (ht ▸ h.queueOk) (by rw [ht]) (by rw [ht]) hl (ht ▸ h.idle)

/-- A frame is offered in RUNNING. -/
theorem QueueSound.offer {s : State} (h : QueueSound s) (b : FrameBody) (hr : s.loader.runState = .running) :
    QueueSound (offer b s) :=
  h.of_queue (offer_queueOk h.queueOk) (offer_attempt b s).2 (offer_attempt b s).1 (by simp) fun hn => absurd hr hn

/-- The transmitter with nothing in the queue. -/
theorem queueSound_empty {s : State} (hq : s.tx.queue = []) (hd : s.tx.driverEnable = s.tx.sending.isSome) : QueueSound s :=
  (queueSound_iff s).2 ⟨hq ▸ queueOk_nil, hd, fun _ => hq⟩

theorem QueueSound.leaveHead {s : State} (h : QueueSound s) : QueueSound (leaveHead s) := by
  unfold Machine.leaveHead
  split
  · exact h
  · next f q hq =>
    have hrunning : s.loader.runState = .running := by
      by_contra hn
      exact List.cons_ne_nil f q (hq ▸ h.idle hn)
    have hleft : QueueSound (drawBackoff (setQueue q s)) := by
      obtain ⟨hsending, hdriver, -⟩ := drawBackoff_attempt (setQueue q s)
      refine h.of_queue ?_ hdriver hsending (by simp) fun hn => absurd hrunning hn
      rw [drawBackoff_queue]
      exact h.queueOk.sublist (hq ▸ List.sublist_cons_self f q)
    dsimp only
    split
    · have hrenewed : QueueSound ((drawBackoff (setQueue q s)).setTx { (drawBackoff (setQueue q s)).tx with renewal := false }) :=
        hleft.of_queue hleft.queueOk rfl rfl rfl hleft.idle
      exact hrenewed.offer _ (by simpa using hrunning)
    · exact hleft

theorem keptLoosely_queueSound : KeptLoosely QueueSound where
  clock := fun _ _ _ h => h.of_eq rfl rfl
  post := fun _ _ _ _ _ h => h.of_eq (by simp) (by simp)
  returns := fun _ _ h => h.of_eq rfl rfl
  count := fun _ _ _ h => h.of_eq rfl rfl
  offer := fun _ _ hr _ h => h.offer _ (runState_of_running hr)
  presence := fun _ _ _ h => h.of_eq rfl rfl
  pendingName := fun _ _ _ h => h.of_eq rfl rfl
  applied := fun _ _ _ h => h.of_eq rfl rfl
  display := fun _ h => h.of_eq rfl rfl
  cells := fun _ _ _ _ h => h.of_eq rfl rfl
  reference := fun _ _ _ h => h.of_eq rfl rfl
  receiver := fun _ _ _ _ h => h.of_eq rfl rfl
  peer := fun _ _ _ _ h => h.of_eq (by simp) (by simp)
  tableCounts := fun _ _ _ _ _ h => h.of_eq rfl rfl
  entries := fun _ _ _ h => h.of_eq rfl rfl
  selector := fun _ _ h => h.of_eq rfl rfl
  cues := fun _ _ h => h.of_eq rfl rfl

theorem keptByCommands_queueSound : KeptByCommands QueueSound where
  pending := fun _ _ h => h.of_eq rfl rfl
  powerOn := fun _ => queueSound_empty rfl rfl
  assertReset := fun s h => (queueSound_iff _).2 ⟨h.queueOk, rfl, h.idle⟩
  releaseReset := fun _ h => by
    unfold releaseReset
    split
    · exact queueSound_empty rfl rfl
    · exact h
  restartNow := fun s _ h => by
    unfold restartNow
    split
    · refine queueSound_empty rfl ?_
      simpa using h.driver
    · exact h
  endLoad := fun image s hheld h => by
    unfold endLoad
    split
    · next hstarting =>
      have hempty := h.idle (by simp [hstarting])
      split
      · exact queueSound_empty (by simpa [failLoad] using hempty) (by simpa [failLoad] using h.driver)
      · have hbegun : QueueSound (beginReception ((takeImage image s).setLoader
            { (takeImage image s).loader with runState := .running })) := queueSound_empty hempty h.driver
        exact keptLoosely_queueSound.post _ _ _ _ _ (keptLoosely_queueSound.offerPresence (State.running_iff.2 ⟨rfl, hheld⟩) hbegun)
    · exact h
  takeEvents := fun _ h => h.of_eq rfl rfl
  takeRestart := fun _ h => h.of_eq rfl rfl
  countSecond := fun _ h => h.of_eq (by simp) (by simp)
  repeatName := fun s hr h => by
    unfold repeatName
    split
    · have hnames : QueueSound (s.setNames { s.names with repeatTimer := 0 }) := h.of_eq rfl rfl
      exact hnames.offer _ (runState_of_running hr)
    · exact h
  setName := fun text s hr h => by
    have hnames (n : NameRecord) : QueueSound (s.setNames { s.names with pendingName := some n }) := h.of_eq rfl rfl
    exact keptLoosely_queueSound.returns _ _ ((hnames _).offer _ (runState_of_running hr))
  countSlot := fun s h => by
    unfold countSlot
    split
    · exact h.of_queue h.queueOk rfl rfl rfl h.idle
    · exact h
  beginAttempt := fun s h => by
    unfold beginAttempt
    split
    · exact h
    · next f q hq =>
      refine keptLoosely_queueSound.setLine _ ((queueSound_iff _).2 ⟨?_, rfl, fun hn => ?_⟩)
      · exact (hq ▸ h.queueOk).head rfl (.inl rfl) (h.attempts f (by simp [hq]))
      · exact absurd (h.idle hn) (by simp [hq])
  endAttempt := fun _ h => (queueSound_iff _).2 ⟨h.queueOk, rfl, h.idle⟩
  nextCharacter := fun a b s ha h => (queueSound_iff _).2 ⟨h.queueOk, h.driver.trans (by rw [ha]; rfl), h.idle⟩
  leaveHead := fun _ _ h => h.leaveHead
  raiseAttempt := fun f q s hq hlt h => by
    obtain ⟨hsending, hdriver, -⟩ := drawBackoff_attempt (raiseAttempt s)
    have hraised : raiseAttempt s = setQueue ({ f with attempt := f.attempt + 1 } :: q) s := by simp [raiseAttempt, hq]
    rw [hraised] at hsending hdriver ⊢
    refine h.of_queue ?_ hdriver hsending (by simp) fun hn => absurd (h.idle hn) (by simp [hq])
    rw [drawBackoff_queue]
    exact (hq ▸ h.queueOk).head rfl (.inr rfl) ⟨Nat.le_add_left 1 _, hlt⟩
  clearQueue := fun s h => queueSound_empty rfl (by simpa [clearQueue] using h.driver)
  clearPeerCounts := fun _ h => h.of_eq rfl rfl
  guard := fun _ h => h.of_eq rfl rfl

/-- Settles O6: every act keeps the queue sound; an offer is made in RUNNING, where the queue may hold frames. -/
theorem everyStepKeepsTheQueueSound : Obligations.EveryStepKeepsTheQueueSound :=
  keptByCommands_queueSound.step keptLoosely_queueSound.acts

end Sys2Proof.Machine
end
section
/-! Every text stays printable (R141): a text enters the part through `printableText`, and is copied from there. -/

namespace Sys2Proof.Machine

theorem printableOnly_spaces : printableOnly spaces := by
  intro c hc
  have hspace : c = 0x20 := by simpa [spaces] using hc
  simp [hspace]

/-- The label of an entry is one of the seven, or else the applied name is shown (R149). -/
theorem TextsSound.chooseText {s : State} (h : TextsSound s) : printableOnly (chooseText s) := by
  unfold Machine.chooseText
  split
  · exact h.applied
  · next e _ =>
    split
    · rw [List.getD_eq_getElem?_getD]
      cases hlabel : s.names.labels.toList[e.label.toNat - 1]? with
      | none => exact h.applied
      | some t => exact h.labels t (List.mem_of_getElem? hlabel)
    · exact h.applied

theorem TextsSound.of_eq {s t : State} (h : TextsSound s) (hn : t.names = s.names)
    (hd : t.cells.displayText = s.cells.displayText) (hq : t.tx.queue = s.tx.queue) : TextsSound t where
  applied := hn ▸ h.applied
  waiting := hn ▸ h.waiting
  labels := hn ▸ h.labels
  display := hd ▸ h.display
  queued := hq ▸ h.queued

/-- A queue of printable frames takes the place of the queue. -/
theorem TextsSound.of_queue {s t : State} (h : TextsSound s) (hn : t.names = s.names)
    (hd : t.cells.displayText = s.cells.displayText) (hq : ∀ f ∈ t.tx.queue, f.body.printable) : TextsSound t where
  applied := hn ▸ h.applied
  waiting := hn ▸ h.waiting
  labels := hn ▸ h.labels
  display := hd ▸ h.display
  queued := hq

theorem printable_withRefreshCount (f : Frame) (k : Nat) (h : f.body.printable) : (f.withRefreshCount k).body.printable := by
  unfold Frame.withRefreshCount
  split
  · exact fun _ _ => nofun
  · exact h

theorem TextsSound.offer {s : State} (h : TextsSound s) {b : FrameBody} (hb : b.printable) : TextsSound (offer b s) :=
  h.of_queue (by simp) (by simp)
    (offer_forall (R := fun f => f.body.printable) hb printable_withRefreshCount (fun _ _ _ => hb) h.queued)

theorem printable_ownPresence (s : State) : (ownPresence s).printable := fun _ _ => nofun

theorem TextsSound.leaveHead {s : State} (h : TextsSound s) : TextsSound (leaveHead s) := by
  unfold Machine.leaveHead
  split
  · exact h
  · next f q hq =>
    have hleft : TextsSound (drawBackoff (setQueue q s)) := by
      refine h.of_queue (by simp) (by simp) fun g hg => ?_
      rw [drawBackoff_queue] at hg
      exact h.queued g (hq ▸ List.mem_cons_of_mem f hg)
    dsimp only
    split
    · exact TextsSound.offer (s := (drawBackoff (setQueue q s)).setTx { (drawBackoff (setQueue q s)).tx with renewal := false })
        (hleft.of_eq rfl rfl rfl) (printable_ownPresence _)
    · exact hleft

/-- Every text of a start is twelve spaces. -/
theorem textsSound_of_start {s : State} (hn : s.names = State.reset.names) (hd : s.cells.displayText = spaces)
    (hq : s.tx.queue = []) : TextsSound s where
  applied := by rw [hn]; exact printableOnly_spaces
  waiting := by rw [hn]; exact nofun
  labels := by
    rw [hn]
    intro t ht
    have hspaces : t = spaces := by simpa [State.reset] using ht
    rw [hspaces]
    exact printableOnly_spaces
  display := by rw [hd]; exact printableOnly_spaces
  queued := by rw [hq]; exact nofun

theorem TextsSound.takeImage {s : State} (h : TextsSound s) (image : List Byte) : TextsSound (takeImage image s) where
  applied := printableOnly_printableText _
  waiting := h.waiting
  labels := fun t ht => by
    obtain ⟨i, _, rfl⟩ : ∃ i < 7, printableText (textAt image (105 + 12 * i)) = t := by
      simpa [Machine.takeImage, imageLabels] using ht
    exact printableOnly_printableText _
  display := h.display
  queued := h.queued

theorem keptLoosely_textsSound : KeptLoosely TextsSound where
  clock := fun _ _ _ h => h.of_eq rfl rfl rfl
  post := fun _ _ _ _ _ h => h.of_eq (by simp) (by simp) (by simp)
  returns := fun _ _ h => h.of_eq rfl rfl rfl
  count := fun _ _ _ h => h.of_eq rfl rfl rfl
  offer := fun _ _ _ hb h => h.offer hb
  presence := fun _ _ _ h => h.of_eq rfl rfl rfl
  pendingName := fun n s hn h => { h with waiting := fun m hm => by cases hm; exact hn }
  applied := fun n s hn h => { h with applied := h.waiting n hn, waiting := nofun }
  display := fun s h => { h with display := h.chooseText }
  cells := fun _ _ hd _ h => h.of_eq rfl hd rfl
  reference := fun _ _ _ h => h.of_eq rfl rfl rfl
  receiver := fun _ _ _ _ h => h.of_eq rfl rfl rfl
  peer := fun _ _ _ _ h => h.of_eq (by simp) (by simp) (by simp)
  tableCounts := fun _ _ _ _ _ h => h.of_eq rfl rfl rfl
  entries := fun _ _ _ h => h.of_eq rfl rfl rfl
  selector := fun _ _ h => h.of_eq rfl rfl rfl
  cues := fun _ _ h => h.of_eq rfl rfl rfl

theorem keptByCommands_textsSound : KeptByCommands TextsSound where
  pending := fun _ _ h => h.of_eq rfl rfl rfl
  powerOn := fun _ => textsSound_of_start rfl rfl rfl
  assertReset := fun _ h => h.of_eq rfl rfl rfl
  releaseReset := fun _ h => by
    unfold releaseReset
    split
    · exact textsSound_of_start rfl rfl rfl
    · exact h
  restartNow := fun _ _ h => by
    unfold restartNow
    split
    · exact textsSound_of_start rfl rfl rfl
    · exact h
  endLoad := fun image s hheld h => by
    unfold endLoad
    split
    · split
      · exact h.of_eq (by simp [failLoad]) (by simp [failLoad]) (by simp [failLoad])
      · have hbegun : TextsSound (beginReception ((takeImage image s).setLoader
            { (takeImage image s).loader with runState := .running })) := (h.takeImage image).of_eq rfl rfl rfl
        exact keptLoosely_textsSound.post _ _ _ _ _ (keptLoosely_textsSound.offerPresence (State.running_iff.2 ⟨rfl, hheld⟩) hbegun)
    · exact h
  takeEvents := fun _ h => h.of_eq rfl rfl rfl
  takeRestart := fun _ h => h.of_eq rfl rfl rfl
  countSecond := fun s h => by
    unfold countSecond
    dsimp only
    split
    · exact { h with }
    · exact h.of_eq rfl rfl rfl
  repeatName := fun s _ h => by
    unfold repeatName
    split
    · have hnames : TextsSound (s.setNames { s.names with repeatTimer := 0 }) := { h with }
      exact hnames.offer fun _ _ e => by cases e; exact h.applied
    · exact h
  setName := fun text s _ h => by
    have hnames (n : NameRecord) (hn : printableOnly n.text) : TextsSound (s.setNames { s.names with pendingName := some n }) :=
      { h with waiting := fun m hm => by cases hm; exact hn }
    exact keptLoosely_textsSound.returns _ _ ((hnames _ (printableOnly_printableText text)).offer
      fun _ _ e => by cases e; exact printableOnly_printableText text)
  countSlot := fun s h => h.of_eq (by simp) (by simp) (by unfold countSlot; split <;> rfl)
  beginAttempt := fun s h => by
    unfold beginAttempt
    split
    · exact h
    · next f q hq =>
      refine keptLoosely_textsSound.setLine _ (h.of_queue rfl rfl fun g hg => ?_)
      rcases List.mem_cons.1 hg with rfl | hg
      · exact h.queued f (by simp [hq])
      · exact h.queued g (by simp [hq, hg])
  endAttempt := fun _ h => h.of_eq rfl rfl rfl
  nextCharacter := fun _ _ _ _ h => h.of_eq rfl rfl rfl
  leaveHead := fun _ _ h => h.leaveHead
  raiseAttempt := fun f q s hq _ h => by
    refine h.of_queue (by simp) (by simp) fun g hg => ?_
    rw [drawBackoff_queue] at hg
    simp only [raiseAttempt, hq, setQueue, State.setTx_tx, List.mem_cons] at hg
    rcases hg with rfl | hg
    · exact h.queued f (by simp [hq])
    · exact h.queued g (by simp [hq, hg])
  clearQueue := fun _ h => h.of_queue rfl rfl nofun
  clearPeerCounts := fun _ h => h.of_eq rfl rfl rfl
  guard := fun _ h => h.of_eq rfl rfl rfl

/-- Settles O9: every act keeps the texts printable. -/
theorem everyStepKeepsTextsPrintable : Obligations.EveryStepKeepsTextsPrintable :=
  keptByCommands_textsSound.step keptLoosely_textsSound.acts

end Sys2Proof.Machine
end
section
/-! Every counted quantity stays in its range (R5, R29, R36, R61, R65, R110, R115, R123, R133, R146, R160, R163, R176), and the cue
histories stay sound (R65, R70, R81). The channels are taken apart from the rest, since an off count leaves its range for the
moment in which a cue ends. -/

namespace Sys2Proof.Machine

/-! ### The ranges outside the cue sources -/

/-- What `RangesSound` says of everything but the channels, block by block. -/
structure RestRanges (s : State) : Prop where
  entries : ∀ e ∈ s.claims.entries, EntryRanges e
  stale : s.claims.stale ≤ 65535
  outside : s.claims.outside ≤ 65535
  offCounts : OffCountRanges s.settings
  counters : CounterRanges s.rx.counters
  peers : ∀ p ∈ s.peers.toList, PeerRanges p
  attempts : ∀ f ∈ s.tx.queue, 1 ≤ f.attempt ∧ f.attempt ≤ 5
  backoff : ∀ n, s.tx.backoff = some n → n ≤ 31
  reference : ReferenceRanges s.reference
  events : s.port.events.length ≤ 16
  presence : PresenceRanges s.presence
  nameRepeat : s.names.repeatTimer ≤ 30
  burst : s.cells.burst ≤ 3
  phase : s.clock.phase < 50

theorem rangesSound_iff (s : State) :
    RangesSound s ↔ RestRanges s ∧ (OffCountRanges s.settings ∧ ∀ ch ∈ s.cues.channels.toList, ChannelRanges ch) :=
  ⟨fun h => ⟨⟨h.entries, h.stale, h.outside, h.offCounts, h.counters, h.peers, h.attempts, h.backoff,
      ⟨h.gap, h.stable, h.backup⟩, h.events, ⟨h.downshift, h.presence⟩, h.nameRepeat, h.burst, h.phase⟩, h.offCounts, h.channels⟩,
   fun ⟨h, _, hc⟩ => ⟨h.entries, hc, h.offCounts, h.counters, h.peers, h.attempts, h.backoff, h.reference.gap,
      h.reference.stable, h.events, h.stale, h.outside, h.presence.downshift, h.presence.presence, h.nameRepeat,
      h.reference.backup, h.burst, h.phase⟩⟩

namespace RestRanges
variable {s : State} (h : RestRanges s)
include h

theorem post (k : EventKind) (a b c : Byte) : RestRanges (postEvent k a b c s) := by
  unfold postEvent
  split
  · next hlt => exact { h with events := (List.length_append.trans (congrArg _ List.length_singleton)).trans_le hlt }
  · exact { h with }

theorem count (f : LinkCounters → LinkCounters) (hf : CounterRanges s.rx.counters → CounterRanges (f s.rx.counters)) :
    RestRanges (countLink f s) := { h with counters := hf h.counters }

theorem frameDropped (b : FrameBody) (x y : Byte) : RestRanges (frameDropped b x y s) := by
  refine (h.post _ _ _ _).count _ fun hc => ?_
  simp_all [counterRanges_iff, inc16_le]

theorem setQueue {q : List Frame} (hq : ∀ f ∈ q, 1 ≤ f.attempt ∧ f.attempt ≤ 5) : RestRanges (setQueue q s) :=
  { h with attempts := hq }

/-- The backoff is drawn for an attempt of 5 at most. -/
theorem drawBackoff : RestRanges (drawBackoff s) := by
  unfold Machine.drawBackoff
  split
  · exact { h with backoff := nofun }
  · next f q hq =>
    refine { h with backoff := fun n hn => ?_ }
    have hattempt : f.attempt ≤ 5 := (h.attempts f (by simp [hq])).2
    have hlt : Config.random s.draws % 2 ^ f.attempt < 2 ^ f.attempt := Nat.mod_lt _ (Nat.two_pow_pos _)
    have hpow : 2 ^ f.attempt ≤ 2 ^ 5 := Nat.pow_le_pow_right (by decide) hattempt
    cases hn
    omega

theorem placeFrame {f : Frame} (hf : f.attempt = 1) : RestRanges (placeFrame f s) := by
  have hinsert : RestRanges (Machine.setQueue (insertFrame f s.tx.queue) s) := by
    refine h.setQueue fun g hg => ?_
    rcases mem_insertFrame.1 hg with rfl | hg
    · omega
    · exact h.attempts g hg
  unfold Machine.placeFrame
  dsimp only
  split
  · exact hinsert
  · exact hinsert.drawBackoff

theorem offerFrame {f : Frame} (hf : f.attempt = 1) : RestRanges (offerFrame f s) := by
  rcases offerFrame_cases f s with ⟨_, heq⟩ | ⟨g, q, hsub, _, heq⟩ | heq | heq <;> rw [heq]
  · exact h.placeFrame hf
  · exact ((h.setQueue fun f hf => h.attempts f (hsub.subset hf)).frameDropped _ _ _).placeFrame hf
  · exact h
  · exact h.frameDropped _ _ _

theorem offer (b : FrameBody) : RestRanges (offer b s) := by
  rcases offer_spec b s with heq | ⟨n, _, _, _, k, _, _, heq⟩ | ⟨_, _, ⟨_, heq⟩ | ⟨_, heq⟩⟩ <;> rw [heq]
  · exact h.offerFrame rfl
  · refine h.setQueue fun f hf => ?_
    obtain ⟨g, hg, rfl⟩ := List.mem_map.1 hf
    have hattempt := h.attempts g hg
    split
    · rwa [Frame.withRefreshCount_attempt]
    · exact hattempt
  · exact { h with }
  · refine h.setQueue fun f hf => ?_
    obtain ⟨g, hg, rfl⟩ := List.mem_map.1 hf
    have hattempt := h.attempts g hg
    split <;> exact hattempt

theorem leaveHead : RestRanges (leaveHead s) := by
  unfold Machine.leaveHead
  split
  · exact h
  · next f q hq =>
    have hleft := (h.setQueue fun g hg => h.attempts g (hq ▸ List.mem_cons_of_mem f hg)).drawBackoff
    dsimp only
    split
    · have hrenewed : RestRanges ((Machine.drawBackoff (Machine.setQueue q s)).setTx
          { (Machine.drawBackoff (Machine.setQueue q s)).tx with renewal := false }) := { hleft with }
      exact hrenewed.offer _
    · exact hleft

theorem peer (p : Byte) : PeerRanges (s.peer p) := by
  have hstart : PeerRanges peerAtStart := ⟨Nat.zero_le _, Nat.zero_le _⟩
  unfold State.peer
  split
  · rw [List.getD_eq_getElem?_getD]
    cases hp : s.peers.toList[p.toNat - 1]? with
    | none => exact hstart
    | some q => exact h.peers q (List.mem_of_getElem? hp)
  · exact hstart

theorem updatePeer (p : Byte) {f : Peer → Peer} (hf : ∀ q, PeerRanges q → PeerRanges (f q)) : RestRanges (updatePeer p f s) := by
  unfold Machine.updatePeer
  split
  · refine { h with peers := fun q hq => ?_ }
    rcases List.mem_or_eq_of_mem_set (by simpa using hq) with hq | rfl
    · exact h.peers q (by simpa using hq)
    · exact hf _ (h.peer p)
  · exact h

end RestRanges

theorem keptLoosely_restRanges : KeptLoosely RestRanges where
  clock := fun _ _ hp h => { h with phase := hp h.phase }
  post := fun _ _ _ _ _ h => h.post _ _ _ _
  returns := fun _ _ h => { h with }
  count := fun _ _ hf h => h.count _ hf
  offer := fun b _ _ _ h => h.offer b
  presence := fun _ _ hp h => { h with presence := hp h.presence }
  pendingName := fun _ _ _ h => { h with }
  applied := fun _ _ _ h => { h with nameRepeat := Nat.zero_le _ }
  display := fun _ h => { h with }
  cells := fun _ _ _ hb h => { h with burst := hb h.burst }
  reference := fun _ _ hm h => { h with reference := hm h.reference }
  receiver := fun _ _ hk _ h => { h with counters := by simpa [hk] using h.counters }
  peer := fun _ _ _ hf h => h.updatePeer _ hf
  tableCounts := fun _ _ he hs ho h => { h with entries := by simpa [he] using h.entries, stale := hs h.stale, outside := ho h.outside }
  entries := fun _ _ hl h => { h with entries := hl h.entries }
  selector := fun _ _ h => { h with }
  cues := fun _ _ h => { h with }

theorem offCountRanges_start : OffCountRanges settingsAtStart := by
  intro src hsrc
  have hstart : src = sourceAtStart := by simpa [settingsAtStart] using hsrc
  rw [hstart]
  decide

theorem offCountRanges_image (image : List Byte) : OffCountRanges (imageSettings image) := by
  intro src hsrc
  obtain ⟨c, _, rfl⟩ : ∃ c < 5, imageSource image c = src := by simpa [imageSettings] using hsrc
  rw [imageSource_eq]
  dsimp only
  rw [countOfByte_eq]
  omega

/-- The counts of a start are 0. -/
theorem restRanges_of_start {s : State} (hc : s.claims.entries = []) (hs : s.claims.stale = 0) (ho : s.claims.outside = 0)
    (hcfg : s.settings = settingsAtStart) (hk : s.rx.counters = countersAtStart) (hp : s.peers = Vector.replicate 31 peerAtStart)
    (hq : s.tx.queue = []) (hb : s.tx.backoff = none) (hr : s.reference = State.reset.reference) (he : s.port.events = [])
    (hpr : s.presence = State.reset.presence) (hn : s.names = State.reset.names) (hcells : s.cells = State.reset.cells)
    (hclock : s.clock = State.reset.clock) : RestRanges s where
  entries := by rw [hc]; exact fun _ he => absurd he List.not_mem_nil
  stale := by omega
  outside := by omega
  offCounts := hcfg ▸ offCountRanges_start
  counters := by rw [hk]; exact (counterRanges_iff _).2 (by decide)
  peers := fun p hmem => by
    have hstart : p = peerAtStart := by simpa [hp] using hmem
    rw [hstart]
    exact ⟨Nat.zero_le _, Nat.zero_le _⟩
  attempts := by rw [hq]; exact fun _ hf => absurd hf List.not_mem_nil
  backoff := by rw [hb]; exact nofun
  reference := by rw [hr]; exact ⟨Nat.zero_le _, Nat.zero_le _, Nat.zero_le _⟩
  events := by rw [he]; exact Nat.zero_le _
  presence := by rw [hpr]; exact ⟨Nat.zero_le _, Nat.zero_le _⟩
  nameRepeat := by rw [hn]; exact Nat.zero_le _
  burst := by rw [hcells]; exact Nat.zero_le _
  phase := by rw [hclock]; exact Nat.zero_lt_succ _

theorem downshiftLimit_le {level : QuietLevel} {limit : Nat} (h : level.downshiftLimit = some limit) : limit ≤ 540 := by
  cases level <;> cases h <;> decide

theorem PresenceRanges.counted {p : Presence} (h : PresenceRanges p) : PresenceRanges p.counted where
  downshift := by
    unfold Presence.counted
    dsimp only
    split
    · exact h.downshift
    · next hl => exact satInc_le.trans (downshiftLimit_le hl)
  presence := satInc_le

theorem ReferenceRanges.counted {m : ReferenceMonitor} (h : ReferenceRanges m) : ReferenceRanges m.counted := by
  unfold ReferenceMonitor.counted
  split
  · exact h
  · exact { h with backup := inc16_le _ }

theorem keptByCommands_restRanges : KeptByCommands RestRanges where
  pending := fun _ _ h => { h with }
  powerOn := fun _ => restRanges_of_start rfl rfl rfl rfl rfl rfl rfl rfl rfl rfl rfl rfl rfl rfl
  assertReset := fun _ h => { h with }
  releaseReset := fun _ h => by
    unfold releaseReset
    split
    · exact restRanges_of_start rfl rfl rfl rfl rfl rfl rfl rfl rfl rfl rfl rfl rfl rfl
    · exact h
  restartNow := fun _ _ h => by
    unfold restartNow
    split
    · exact restRanges_of_start rfl rfl rfl rfl rfl rfl rfl rfl rfl rfl rfl rfl rfl rfl
    · exact h
  endLoad := fun image s hheld h => by
    unfold endLoad
    split
    · split
      · exact RestRanges.post (s := s.setLoader { s.loader with runState := .configFault, faultCause := _ }) { h with } _ _ _ _
      · have hbegun : RestRanges (beginReception ((takeImage image s).setLoader
            { (takeImage image s).loader with runState := .running })) := { h with offCounts := offCountRanges_image image }
        exact keptLoosely_restRanges.post _ _ _ _ _ (keptLoosely_restRanges.offerPresence (State.running_iff.2 ⟨rfl, hheld⟩) hbegun)
    · exact h
  takeEvents := fun _ h => { h with events := Nat.zero_le _ }
  takeRestart := fun _ h => { h with }
  countSecond := fun s h => by
    unfold countSecond
    dsimp only
    split
    · refine { h with reference := h.reference.counted, presence := h.presence.counted, nameRepeat := ?_ }
      show (NameStore.counted _ _).repeatTimer ≤ 30
      unfold NameStore.counted
      dsimp only
      split
      · exact satInc_le
      · exact Nat.zero_le _
    · exact { h with reference := h.reference.counted }
  repeatName := fun s _ h => by
    unfold repeatName
    split
    · exact RestRanges.offer (s := s.setNames { s.names with repeatTimer := 0 }) { h with nameRepeat := Nat.zero_le _ } _
    · exact h
  setName := fun text s _ h => by
    have hnames (n : NameRecord) : RestRanges (s.setNames { s.names with pendingName := some n }) := { h with }
    exact keptLoosely_restRanges.returns _ _ ((hnames _).offer _)
  countSlot := fun s h => by
    unfold countSlot
    split
    · refine { h with backoff := fun n hn => ?_ }
      obtain ⟨m, hm, rfl⟩ := Option.map_eq_some_iff.1 hn
      exact (Nat.sub_le m 1).trans (h.backoff m hm)
    · exact h
  beginAttempt := fun s h => by
    unfold beginAttempt
    split
    · exact h
    · next f q hq =>
      refine keptLoosely_restRanges.setLine _ { h with attempts := fun g hg => ?_ }
      rcases List.mem_cons.1 hg with rfl | hg
      · exact h.attempts f (by simp [hq])
      · exact h.attempts g (by simp [hq, hg])
  endAttempt := fun _ h => { h with }
  nextCharacter := fun _ _ _ _ h => { h with }
  leaveHead := fun _ _ h => h.leaveHead
  raiseAttempt := fun f q s hq hlt h => by
    have hraised : raiseAttempt s = setQueue ({ f with attempt := f.attempt + 1 } :: q) s := by simp [raiseAttempt, hq]
    rw [hraised]
    refine (h.setQueue fun g hg => ?_).drawBackoff
    rcases List.mem_cons.1 hg with rfl | hg
    · exact ⟨Nat.le_add_left 1 _, hlt⟩
    · exact h.attempts g (by simp [hq, hg])
  clearQueue := fun _ h => { h with attempts := fun _ hf => absurd hf List.not_mem_nil, backoff := nofun }
  clearPeerCounts := fun s h => by
    refine { h with peers := fun p hp => ?_ }
    obtain ⟨q, _, rfl⟩ : ∃ q ∈ s.peers.toList, { q with framesHeard := 0, absences := 0 } = p := by
      simpa [clearPeerCounts] using hp
    exact ⟨Nat.zero_le _, Nat.zero_le _⟩
  guard := fun _ h => { h with }

/-! ### The cue sources at an ending -/

/-- A notice to a cue source reads the cue sources and the time alone. -/
theorem cueNotice_cues_congr {s t : State} (source : Option (Fin 5)) (cause : EndCause) (hcues : t.cues = s.cues)
    (hclock : t.clock = s.clock) : (cueNotice source cause t).cues = (cueNotice source cause s).cues := by
  unfold cueNotice updateChannel
  rw [hcues, hclock]
  (repeat' split) <;> simp [hcues]

theorem refillSlot_cues (e : Entry) (s : State) : (refillSlot e s).cues = s.cues := by
  unfold refillSlot
  split <;> simp

/-- What an ending does to the cue sources is the notice to its own (R74, R80). -/
theorem endEntry_cues (k : Byte × Byte) (cause : EndCause) (s : State) :
    (endEntry k cause s).cues = s.cues ∨ ∃ source, (endEntry k cause s).cues = (cueNotice source cause s).cues := by
  rcases endEntry_cases k cause s with heq | ⟨e, _, _, heq⟩ <;> rw [heq]
  · exact .inl rfl
  · rw [refillSlot_cues, activity_cues]
    unfold tellEnding
    split
    · exact .inr ⟨e.source, cueNotice_cues_congr _ _ (by simp) (by simp)⟩
    · split <;> exact .inl (by simp)

/-- A claim that its own cue has ended moves no cue source (R80). -/
theorem endEntry_released_cues (k : Byte × Byte) (s : State) : (endEntry k .released s).cues = s.cues := by
  rcases endEntry_cues k .released s with h | ⟨source, h⟩
  · exact h
  · rw [h]
    cases source <;> simp [cueNotice]

/-- The cue of an ACTIVE channel ends in one move of the channel (R73). -/
theorem endCue_cues (c : Fin 4) (s : State) : (endCue c s).cues =
    (updateChannel c (fun ch => (ch.closeRecord s.clock.stationTime .released).toIdle) s).cues := by
  unfold endCue
  split
  · rfl
  · next n _ =>
    have hcues := endEntry_released_cues (s.settings.station, n) s
    have hclock : (endEntry (s.settings.station, n) .released s).clock = s.clock := by simp
    simp only [updateChannel, State.setCues_cues, hcues, hclock]

theorem endCue_settings (c : Fin 4) (s : State) : (endCue c s).settings = s.settings := by simp

/-! ### The channels -/

/-- The settings meet `G`, and every channel meets `R`. -/
def CuesHold (G : Settings → Prop) (R : Channel → Prop) (s : State) : Prop :=
  G s.settings ∧ ∀ ch ∈ s.cues.channels.toList, R ch

/-- What a move of a channel may rest on: it keeps the channel sound, and its counts in their ranges while the configured off counts
are in theirs. -/
structure CueMove (cfg : Settings) (ch : Channel) (f : Channel → Channel) : Prop where
  sound : ChannelSound ch → ChannelSound (f ch)
  ranges : OffCountRanges cfg → ChannelRanges ch → ChannelRanges (f ch)

/-- The predicate `R` of a channel is kept by every such move, under settings that meet `G`; both hold at a start, and `G` of the
settings of an image. -/
structure KeptByMoves (G : Settings → Prop) (R : Channel → Prop) : Prop where
  move : ∀ cfg ch f, G cfg → CueMove cfg ch f → R ch → R (f ch)
  atStart : G settingsAtStart ∧ R channelAtStart
  image : ∀ bytes, G (imageSettings bytes)

section
variable {G : Settings → Prop} {R : Channel → Prop}

theorem CuesHold.of_eq {s t : State} (h : CuesHold G R s) (hcfg : t.settings = s.settings) (hcues : t.cues = s.cues) :
    CuesHold G R t := by
  simpa [CuesHold, hcfg, hcues] using h

theorem CuesHold.channel {s : State} (h : CuesHold G R s) (c : Fin 4) : R s.cues.channels[c] := h.2 _ (by simp)

theorem CuesHold.updateChannel (M : KeptByMoves G R) {s : State} (h : CuesHold G R s) (c : Fin 4) {f : Channel → Channel}
    (hf : CueMove s.settings s.cues.channels[c] f) : CuesHold G R (updateChannel c f s) := by
  refine ⟨h.1, fun ch hch => ?_⟩
  rcases Vector.mem_or_eq_of_mem_set (by simpa [Machine.updateChannel] using hch) with hch | rfl
  · exact h.2 ch (by simpa using hch)
  · exact M.move _ _ _ h.1 hf (h.channel c)

theorem EndCause.outcome_ne_opened (cause : EndCause) : cause.outcome ≠ .opened := by cases cause <;> decide

theorem CuesHold.cueNotice (M : KeptByMoves G R) {s : State} (h : CuesHold G R s) (source : Option (Fin 5)) (cause : EndCause) :
    CuesHold G R (cueNotice source cause s) := by
  unfold Machine.cueNotice
  split
  · exact h
  · next c =>
    split
    · exact h
    · split
      · next hc =>
        split
        · next hactive =>
          exact h.updateChannel M ⟨c.val, hc⟩ ⟨fun hs => hs.lost _ cause.outcome_ne_opened hactive,
            fun _ hr => ⟨hr.runLength, hr.highCount, Nat.zero_le _⟩⟩
        · exact h
      · exact ⟨h.1, h.2⟩

theorem CuesHold.of_start (M : KeptByMoves G R) {s : State} (hcfg : s.settings = settingsAtStart)
    (hch : s.cues.channels = Vector.replicate 4 channelAtStart) : CuesHold G R s := by
  refine ⟨hcfg ▸ M.atStart.1, fun ch hmem => ?_⟩
  have hstart : ch = channelAtStart := by simpa [hch] using hmem
  exact hstart ▸ M.atStart.2

theorem keptByActs_cuesHold (M : KeptByMoves G R) : KeptByActs (CuesHold G R) where
  clock := fun _ _ _ h => h.of_eq rfl rfl
  post := fun _ _ _ _ _ h => h.of_eq (by simp) (by simp)
  returns := fun _ _ h => h.of_eq rfl rfl
  count := fun _ _ _ h => h.of_eq rfl rfl
  offer := fun _ _ _ _ h => h.of_eq (by simp) (by simp)
  presence := fun _ _ _ h => h.of_eq rfl rfl
  pendingName := fun _ _ _ h => h.of_eq rfl rfl
  applied := fun _ _ _ h => h.of_eq rfl rfl
  display := fun _ h => h.of_eq rfl rfl
  cells := fun _ _ _ _ h => h.of_eq rfl rfl
  reference := fun _ _ _ h => h.of_eq rfl rfl
  receiver := fun _ _ _ _ h => h.of_eq rfl rfl
  peer := fun _ _ _ _ h => h.of_eq (by simp) (by simp)
  tableCounts := fun _ _ _ _ _ h => h.of_eq rfl rfl
  select := fun _ _ h => h.of_eq (by simp) (by simp)
  endEntry := fun k cause s _ h => by
    rcases endEntry_cues k cause s with heq | ⟨source, heq⟩
    · exact h.of_eq (by simp) heq
    · exact (h.cueNotice M source cause).of_eq (by simp) heq
  entry := fun _ _ _ _ _ h => h.of_eq rfl rfl
  agedEntries := fun _ h => h.of_eq rfl rfl
  freeEnded := fun _ _ _ h => h.of_eq (by simp) (by simp)
  freeTail := fun _ _ _ h => h.of_eq (by simp) (by simp)
  createLocal := fun _ _ _ h => h.of_eq (by simp) (by simp)
  considerClaim := fun _ _ _ _ _ _ _ _ _ _ _ h => h.of_eq (by simp) (by simp)
  clearTable := fun _ _ h => h.of_eq (by simp) (by simp)
  inputs := fun _ _ h => ⟨h.1, h.2⟩
  manual := fun _ _ _ h => ⟨h.1, h.2⟩
  channel := fun c _ _ hsound hranges h => h.updateChannel M c ⟨hsound, hranges⟩
  channels := fun f s hsound hranges h => by
    refine ⟨h.1, fun ch hch => ?_⟩
    obtain ⟨x, hx, rfl⟩ : ∃ x ∈ s.cues.channels, f x = ch := by simpa [mapChannels] using hch
    exact M.move _ _ _ h.1 ⟨hsound x, fun _ => hranges x⟩ (h.2 x (by simpa using hx))
  endCue := fun c above s _ _ h => by
    have hmove : CueMove s.settings s.cues.channels[c]
        ((fun ch => (ch.closeRecord (Machine.updateChannel c (Channel.countOff above) s).clock.stationTime .released).toIdle)
          ∘ Channel.countOff above) :=
      ⟨fun hs => (hs.countOff above).closeRecord_toIdle _ (by decide), fun _ _ => channelRanges_toIdle _⟩
    refine (h.updateChannel M c hmove).of_eq (by simp) ?_
    rw [endCue_cues, updateChannel_updateChannel]

theorem keptByCommands_cuesHold (M : KeptByMoves G R) : KeptByCommands (CuesHold G R) where
  pending := fun _ _ h => h.of_eq rfl rfl
  powerOn := fun _ => .of_start M rfl rfl
  assertReset := fun _ h => h.of_eq rfl rfl
  releaseReset := fun _ h => by
    unfold releaseReset
    split
    · exact .of_start M rfl rfl
    · exact h
  restartNow := fun _ _ h => by
    unfold restartNow
    split
    · exact .of_start M rfl rfl
    · exact h
  endLoad := fun image s _ h => by
    unfold endLoad
    split
    · split
      · exact h.of_eq (by simp [failLoad]) (by simp [failLoad])
      · have htaken : CuesHold G R (takeImage image s) := ⟨M.image image, h.2⟩
        exact htaken.of_eq (by simp [beginRunning, beginReception]) (by simp [beginRunning, beginReception])
    · exact h
  takeEvents := fun _ h => h.of_eq rfl rfl
  takeRestart := fun _ h => h.of_eq rfl rfl
  countSecond := fun _ h => h.of_eq (by simp) (by simp)
  repeatName := fun _ _ h => h.of_eq (by simp) (by simp)
  setName := fun _ _ _ h => h.of_eq (by simp) (by simp)
  countSlot := fun _ h => h.of_eq (by simp) (by simp)
  beginAttempt := fun _ h => h.of_eq (by simp) (by simp)
  endAttempt := fun _ h => h.of_eq rfl rfl
  nextCharacter := fun _ _ _ _ h => h.of_eq rfl rfl
  leaveHead := fun _ _ h => h.of_eq (by simp) (by simp)
  raiseAttempt := fun _ _ _ _ _ h => h.of_eq (by simp) (by simp)
  clearQueue := fun _ h => h.of_eq (by simp) (by simp)
  clearPeerCounts := fun _ h => h.of_eq (by simp) (by simp)
  guard := fun _ h => h.of_eq rfl rfl

end

theorem channelSound_atStart : ChannelSound channelAtStart :=
  .of_closed (Nat.zero_le _) (fun _ h => absurd h List.not_mem_nil) (fun _ h => absurd h List.not_mem_nil) rfl rfl

theorem keptByMoves_sound : KeptByMoves (fun _ => True) ChannelSound where
  move := fun _ _ _ _ hf h => hf.sound h
  atStart := ⟨trivial, channelSound_atStart⟩
  image := fun _ => trivial

theorem keptByMoves_ranges : KeptByMoves OffCountRanges ChannelRanges where
  move := fun _ _ _ hcfg hf h => hf.ranges hcfg h
  atStart := ⟨offCountRanges_start, Nat.zero_le _, Nat.zero_le _, Nat.zero_le _⟩
  image := offCountRanges_image

/-- Settles O8: every move of a channel keeps it sound, and nothing else moves one. -/
theorem everyStepKeepsHistoriesSound : Obligations.EveryStepKeepsHistoriesSound := fun s t h e =>
  ((keptByCommands_cuesHold keptByMoves_sound).step (keptByActs_cuesHold keptByMoves_sound) s t ⟨trivial, h⟩ e).2

/-- Settles O10: the ranges of the channels rest on those of the configured off counts, and the rest on itself. -/
theorem everyStepKeepsRanges : Obligations.EveryStepKeepsRanges := fun s t h e => by
  obtain ⟨hrest, hcues⟩ := (rangesSound_iff s).1 h
  exact (rangesSound_iff t).2 ⟨keptByCommands_restRanges.step keptLoosely_restRanges.acts s t hrest e,
    (keptByCommands_cuesHold keptByMoves_ranges).step (keptByActs_cuesHold keptByMoves_ranges) s t hcues e⟩

end Sys2Proof.Machine
end
section
/-! The best entry of a set (R39, R40). -/

namespace Sys2Proof.Machine

/-! ### The entries of the largest and of the smallest value -/

theorem foldl_max_eq (f : Entry → Nat) (l : List Entry) (m : Nat) :
    l.foldl (fun m e => max m (f e)) m = (l.map f).foldl max m := by
  rw [List.foldl_map]

theorem foldl_min_eq (f : Entry → Nat) (l : List Entry) (m : Nat) :
    l.foldl (fun m e => min m (f e)) m = (l.map f).foldl min m := by
  rw [List.foldl_map]

theorem foldl_max_spec (l : List Nat) (m : Nat) :
    m ≤ l.foldl max m ∧ (∀ n ∈ l, n ≤ l.foldl max m) ∧ (l.foldl max m = m ∨ l.foldl max m ∈ l) := by
  induction l generalizing m with
  | nil => simp
  | cons n l ih =>
    obtain ⟨hm, hl, hmem⟩ := ih (max m n)
    refine ⟨(Nat.le_max_left m n).trans hm, fun k hk => ?_, ?_⟩
    · rcases List.mem_cons.1 hk with rfl | hk
      · exact (Nat.le_max_right m k).trans hm
      · exact hl k hk
    · rcases hmem with heq | hmem
      · rw [List.foldl_cons, heq]
        rcases Nat.le_total m n with hle | hle
        · exact .inr (by simp [Nat.max_eq_right hle])
        · exact .inl (Nat.max_eq_left hle)
      · exact .inr (List.mem_cons_of_mem n hmem)

theorem foldl_min_spec (l : List Nat) (m : Nat) :
    l.foldl min m ≤ m ∧ (∀ n ∈ l, l.foldl min m ≤ n) ∧ (l.foldl min m = m ∨ l.foldl min m ∈ l) := by
  induction l generalizing m with
  | nil => simp
  | cons n l ih =>
    obtain ⟨hm, hl, hmem⟩ := ih (min m n)
    refine ⟨hm.trans (Nat.min_le_left m n), fun k hk => ?_, ?_⟩
    · rcases List.mem_cons.1 hk with rfl | hk
      · exact hm.trans (Nat.min_le_right m k)
      · exact hl k hk
    · rcases hmem with heq | hmem
      · rw [List.foldl_cons, heq]
        rcases Nat.le_total m n with hle | hle
        · exact .inl (Nat.min_eq_left hle)
        · exact .inr (by simp [Nat.min_eq_right hle])
      · exact .inr (List.mem_cons_of_mem n hmem)

theorem mem_keepLargest {f : Entry → Nat} {l : List Entry} {e : Entry} :
    e ∈ keepLargest f l ↔ e ∈ l ∧ ∀ o ∈ l, f o ≤ f e := by
  obtain ⟨-, hall, hmem⟩ := foldl_max_spec (l.map f) 0
  rw [← foldl_max_eq] at hall hmem
  have hall : ∀ o ∈ l, f o ≤ l.foldl (fun m e => max m (f e)) 0 := fun o ho => hall _ (List.mem_map_of_mem ho)
  simp only [keepLargest, List.mem_filter, beq_iff_eq, and_congr_right_iff]
  intro he
  constructor
  · intro heq o ho
    exact heq ▸ hall o ho
  · intro hle
    refine Nat.le_antisymm (hall e he) ?_
    rcases hmem with h0 | hmem
    · omega
    · obtain ⟨o, ho, heq⟩ := List.mem_map.1 hmem
      exact heq ▸ hle o ho

theorem mem_keepSmallest {f : Entry → Nat} {l : List Entry} {e : Entry} (hf : ∀ o ∈ l, f o ≤ 255) :
    e ∈ keepSmallest f l ↔ e ∈ l ∧ ∀ o ∈ l, f e ≤ f o := by
  obtain ⟨-, hall, hmem⟩ := foldl_min_spec (l.map f) 255
  rw [← foldl_min_eq] at hall hmem
  have hall : ∀ o ∈ l, l.foldl (fun m e => min m (f e)) 255 ≤ f o := fun o ho => hall _ (List.mem_map_of_mem ho)
  simp only [keepSmallest, List.mem_filter, beq_iff_eq, and_congr_right_iff]
  intro he
  constructor
  · intro heq o ho
    exact heq ▸ hall o ho
  · intro hle
    refine Nat.le_antisymm ?_ (hall e he)
    rcases hmem with h0 | hmem
    · rw [h0]
      exact hf e he
    · obtain ⟨o, ho, heq⟩ := List.mem_map.1 hmem
      exact heq ▸ hle o ho

/-- A non-empty set has an entry of the largest value. -/
theorem exists_mem_keepLargest (f : Entry → Nat) {l : List Entry} (h : l ≠ []) : ∃ e, e ∈ keepLargest f l := by
  obtain ⟨x, l', rfl⟩ := List.exists_cons_of_ne_nil h
  obtain ⟨-, hall, hmem⟩ := foldl_max_spec (l'.map f) (f x)
  have hbest : ∃ e ∈ x :: l', f e = (l'.map f).foldl max (f x) := by
    rcases hmem with heq | hmem
    · exact ⟨x, List.mem_cons_self, heq.symm⟩
    · obtain ⟨e, he, heq⟩ := List.mem_map.1 hmem
      exact ⟨e, List.mem_cons_of_mem x he, heq⟩
  obtain ⟨e, he, heq⟩ := hbest
  refine ⟨e, mem_keepLargest.2 ⟨he, fun o ho => ?_⟩⟩
  rw [heq]
  rcases List.mem_cons.1 ho with rfl | ho
  · exact (foldl_max_spec _ _).1
  · exact hall _ (List.mem_map_of_mem ho)

/-- A non-empty set has an entry of the smallest value. -/
theorem exists_mem_keepSmallest (f : Entry → Nat) {l : List Entry} (h : l ≠ []) (hf : ∀ o ∈ l, f o ≤ 255) :
    ∃ e, e ∈ keepSmallest f l := by
  obtain ⟨x, l', rfl⟩ := List.exists_cons_of_ne_nil h
  obtain ⟨hx, hall, hmem⟩ := foldl_min_spec (l'.map f) (f x)
  have hbest : ∃ e ∈ x :: l', f e = (l'.map f).foldl min (f x) := by
    rcases hmem with heq | hmem
    · exact ⟨x, List.mem_cons_self, heq.symm⟩
    · obtain ⟨e, he, heq⟩ := List.mem_map.1 hmem
      exact ⟨e, List.mem_cons_of_mem x he, heq⟩
  obtain ⟨e, he, heq⟩ := hbest
  refine ⟨e, (mem_keepSmallest hf).2 ⟨he, fun o ho => ?_⟩⟩
  rw [heq]
  rcases List.mem_cons.1 ho with rfl | ho
  · exact hx
  · exact hall _ (List.mem_map_of_mem ho)

/-! ### The best entry -/

/-- No entry of `l` comes before `e` by score, class and origin. -/
structure Foremost (l : List Entry) (e : Entry) : Prop where
  mem : e ∈ l
  score : ∀ o ∈ l, o.score ≤ e.score
  cls : ∀ o ∈ l, o.score = e.score → o.cls.rank ≤ e.cls.rank
  origin : ∀ o ∈ l, o.score = e.score → o.cls.rank = e.cls.rank → e.origin.toNat ≤ o.origin.toNat

/-- The entries left when score, class and origin have been weighed. -/
def foremost (l : List Entry) : List Entry :=
  keepSmallest (fun e => e.origin.toNat) (keepLargest (fun e => e.cls.rank) (keepLargest (fun e => e.score) l))

theorem byte_le_255 (b : Byte) : b.toNat ≤ 255 := Nat.le_of_lt_succ b.isLt

theorem mem_foremost {l : List Entry} {e : Entry} : e ∈ foremost l ↔ Foremost l e := by
  simp only [foremost, mem_keepSmallest (fun _ _ => byte_le_255 _), mem_keepLargest]
  constructor
  · intro ⟨⟨⟨he, hscore⟩, hcls⟩, horigin⟩
    have hscored : ∀ o ∈ l, o.score = e.score → o ∈ l ∧ ∀ p ∈ l, p.score ≤ o.score :=
      fun o ho heq => ⟨ho, fun p hp => heq ▸ hscore p hp⟩
    refine ⟨he, hscore, fun o ho heq => hcls o (hscored o ho heq), fun o ho heq hrank => ?_⟩
    exact horigin o ⟨hscored o ho heq, fun p hp => hrank ▸ hcls p hp⟩
  · intro h
    have hscored : ∀ o, (o ∈ l ∧ ∀ p ∈ l, p.score ≤ o.score) → o.score = e.score :=
      fun o ho => Nat.le_antisymm (h.score o ho.1) (ho.2 e h.mem)
    refine ⟨⟨⟨h.mem, h.score⟩, fun o ho => h.cls o ho.1 (hscored o ho)⟩, fun o ho => ?_⟩
    have heq := hscored o ho.1
    exact h.origin o ho.1.1 heq
      (Nat.le_antisymm (h.cls o ho.1.1 heq) (ho.2 e ⟨h.mem, h.score⟩))

theorem exists_foremost {l : List Entry} (h : l ≠ []) : ∃ e, e ∈ foremost l := by
  obtain ⟨a, ha⟩ := exists_mem_keepLargest (fun e => e.score) h
  obtain ⟨b, hb⟩ := exists_mem_keepLargest (fun e => e.cls.rank) (List.ne_nil_of_mem ha)
  exact exists_mem_keepSmallest _ (List.ne_nil_of_mem hb) fun _ _ => byte_le_255 _

/-- Of the entries left, `e` has the number of each or is older. -/
def OldestOf (l : List Entry) (e : Entry) : Prop := ∀ o ∈ l, o.number = e.number ∨ olderNumber e.number o.number = true

theorem best_eq (l : List Entry) : best l =
    match (foremost l).find? fun e => (foremost l).all fun o => o.number == e.number || olderNumber e.number o.number with
    | some e => some e
    | none => (keepSmallest (fun e => e.number.toNat) (foremost l)).head? := rfl

/-- What the best entry is: one of those left, and of them the oldest, or, where there is none, the one of the lowest number. -/
theorem best_spec {l : List Entry} {e : Entry} (h : best l = some e) : e ∈ foremost l
    ∧ (OldestOf (foremost l) e
      ∨ (∀ o ∈ foremost l, ¬ OldestOf (foremost l) o) ∧ ∀ o ∈ foremost l, e.number.toNat ≤ o.number.toNat) := by
  rw [best_eq] at h
  split at h
  · next o ho =>
    cases h
    refine ⟨List.mem_of_find?_eq_some ho, .inl ?_⟩
    simpa [OldestOf] using List.find?_some ho
  · next hnone =>
    have hmem := (mem_keepSmallest fun _ _ => byte_le_255 _).1 (List.mem_of_mem_head? (Option.mem_def.2 h))
    refine ⟨hmem.1, .inr ⟨fun o ho hold => ?_, hmem.2⟩⟩
    have := List.find?_eq_none.1 hnone o ho
    simp only [List.all_eq_true, Bool.or_eq_true, beq_iff_eq] at this
    exact this hold

theorem best_mem {l : List Entry} {e : Entry} (h : best l = some e) : e ∈ l := (mem_foremost.1 (best_spec h).1).mem

/-- A non-empty set has a best entry. -/
theorem exists_best {l : List Entry} (h : l ≠ []) : ∃ e, best l = some e := by
  obtain ⟨x, hx⟩ := exists_foremost h
  rw [best_eq]
  split
  · next e _ => exact ⟨e, rfl⟩
  · obtain ⟨y, hy⟩ := exists_mem_keepSmallest (fun e => e.number.toNat) (List.ne_nil_of_mem hx) fun _ _ => byte_le_255 _
    obtain ⟨z, m, hz⟩ := List.exists_cons_of_ne_nil (List.ne_nil_of_mem hy)
    exact ⟨z, by rw [hz]; rfl⟩

theorem best_eq_none {l : List Entry} : best l = none ↔ l = [] := by
  constructor
  · intro h
    by_contra hne
    obtain ⟨e, he⟩ := exists_best hne
    rw [he] at h
    cases h
  · rintro rfl
    rfl

/-- A number is not older than one that is older than it. -/
theorem olderNumber_asymm {a b : Byte} (h : olderNumber a b = true) : olderNumber b a = false ∧ a ≠ b := by
  simp only [olderNumber, decide_eq_true_eq, decide_eq_false_iff_not, BitVec.toNat_sub] at h ⊢
  have ha := a.isLt
  have hb := b.isLt
  refine ⟨by omega, ?_⟩
  rintro rfl
  omega

/-- An entry of those left that is older than every other of them is the best. -/
theorem best_of_oldest {l : List Entry} {e : Entry} (he : e ∈ foremost l)
    (hold : ∀ o ∈ foremost l, o ≠ e → olderNumber e.number o.number = true) : best l = some e := by
  have holdest : OldestOf (foremost l) e := fun o ho =>
    if heq : o = e then .inl (heq ▸ rfl) else .inr (hold o ho heq)
  obtain ⟨x, hx⟩ := exists_best (List.ne_nil_of_mem (mem_foremost.1 he).mem)
  obtain ⟨hmem, hx' | ⟨hnone, -⟩⟩ := best_spec hx
  · by_cases heq : x = e
    · exact heq ▸ hx
    · obtain ⟨hnot, hne⟩ := olderNumber_asymm (hold x hmem heq)
      rcases hx' e he with h | h
      · exact absurd h hne
      · rw [h] at hnot
        cases hnot
  · exact absurd holdest (hnone e he)

theorem ClaimClass.rank_injective {x y : ClaimClass} (h : x.rank = y.rank) : x = y := by cases x <;> cases y <;> simp_all [ClaimClass.rank]

/-- Two entries left have the same score, class and origin. -/
theorem Foremost.same {l : List Entry} {x y : Entry} (hx : Foremost l x) (hy : Foremost l y) :
    x.score = y.score ∧ x.cls = y.cls ∧ x.origin = y.origin := by
  have hscore := Nat.le_antisymm (hy.score x hx.mem) (hx.score y hy.mem)
  have hrank := Nat.le_antisymm (hy.cls x hx.mem hscore) (hx.cls y hy.mem hscore.symm)
  have horigin := Nat.le_antisymm (hx.origin y hy.mem hscore.symm hrank.symm) (hy.origin x hx.mem hscore hrank)
  exact ⟨hscore, ClaimClass.rank_injective hrank, BitVec.eq_of_toNat_eq horigin⟩

/-- An entry that has the score, class and origin of one left is left too. -/
theorem Foremost.of_same {l : List Entry} {x y : Entry} (hx : Foremost l x) (hy : y ∈ l) (hscore : y.score = x.score)
    (hcls : y.cls = x.cls) (horigin : y.origin = x.origin) : Foremost l y where
  mem := hy
  score := fun o ho => hscore ▸ hx.score o ho
  cls := fun o ho => by rw [hscore, hcls]; exact hx.cls o ho
  origin := fun o ho => by rw [hscore, hcls, horigin]; exact hx.origin o ho

/-- Of two entries the best is the one that precedes the other. -/
theorem best_of_precedes {l : List Entry} {x y : Entry} (hl : ∀ o, o ∈ l ↔ o = x ∨ o = y) (hne : x.key ≠ y.key)
    (h : precedes x y = true) : best l = some x := by
  have hx : x ∈ l := (hl x).2 (.inl rfl)
  have hy : y ∈ l := (hl y).2 (.inr rfl)
  obtain ⟨e, he⟩ := exists_best (List.ne_nil_of_mem hx)
  obtain ⟨hmem, hpick⟩ := best_spec he
  rcases (hl e).1 (best_mem he) with rfl | rfl
  · exact he
  · have hfore := mem_foremost.1 hmem
    have hscore := hfore.score x hx
    unfold precedes at h
    split at h
    · exact absurd (of_decide_eq_true h) (by omega)
    · next hs =>
      have hs : x.score = e.score := by omega
      have hrank := hfore.cls x hx hs
      split at h
      · exact absurd (of_decide_eq_true h) (by omega)
      · next hr =>
        have hr : x.cls.rank = e.cls.rank := by omega
        have horigin := hfore.origin x hx hs hr
        split at h
        · exact absurd (of_decide_eq_true h) (by omega)
        · next ho =>
          have ho : x.origin = e.origin := not_not.1 ho
          have hxfore := hfore.of_same hx hs (ClaimClass.rank_injective hr) ho
          split at h
          · next holder =>
            refine best_of_oldest (mem_foremost.2 hxfore) fun o hof hox => ?_
            rcases (hl o).1 (mem_foremost.1 hof).mem with rfl | rfl
            · exact absurd rfl hox
            · exact holder
          · obtain ⟨hcomp, hlt⟩ := Bool.and_eq_true_iff.1 h
            have hlt := of_decide_eq_true hlt
            rcases hpick with hold | ⟨-, hlow⟩
            · rcases hold x (mem_foremost.2 hxfore) with heq | heq
              · exact absurd (Prod.ext ho heq) hne
              · simp only [notComparable, olderNumber, beq_iff_eq, decide_eq_true_eq, BitVec.toNat_sub] at hcomp heq
                have := x.number.isLt
                have := e.number.isLt
                omega
            · exact absurd (hlow x (mem_foremost.2 hxfore)) (by omega)

/-- Settles O25: the best is one of those left by score, class and origin, and of them the oldest or the lowest number. -/
theorem bestOfASet : Obligations.BestOfASet := by
  refine ⟨fun l hl => ?_, fun l e he hfore => ?_, fun x y hne h => ?_⟩
  · obtain ⟨e, he⟩ := exists_best hl
    obtain ⟨hmem, hpick⟩ := best_spec he
    have hfore := mem_foremost.1 hmem
    refine ⟨e, hfore.mem, he, fun o ho => ⟨hfore.score o ho, hfore.cls o ho,
      fun hs hc => hfore.origin o ho hs (congrArg _ hc), fun hs hc hor => ?_⟩⟩
    rcases hpick with hold | ⟨-, hlow⟩
    · refine .inl fun p hp hps hpc hpo => hold p (mem_foremost.2 (hfore.of_same hp hps hpc hpo))
    · exact .inr (hlow o (mem_foremost.2 (hfore.of_same ho hs hc hor)))
  · have hforemost : Foremost l e := ⟨he, fun o ho => (hfore o ho).1, fun o ho => (hfore o ho).2.1,
      fun o ho hs hr => (hfore o ho).2.2.1 hs (ClaimClass.rank_injective hr)⟩
    refine best_of_oldest (mem_foremost.2 hforemost) fun o ho hne => ?_
    have hother := mem_foremost.1 ho
    obtain ⟨hs, hc, hor⟩ := hother.same hforemost
    exact (hfore o hother.mem).2.2.2 hs hc hor hne
  · exact ⟨best_of_precedes (fun o => by simp) hne h, best_of_precedes (fun o => by simp [or_comm]) hne h⟩

end Sys2Proof.Machine
end
section
/-! The entries of the Claim Table: which entry a key finds, what a selection run and an ending make of each entry (R14, R45 to R51),
and the victims and the number of a newcomer (R16, R19). -/

namespace Sys2Proof.Machine

/-! ### Entries by their identity -/

theorem distinctClaims_iff (s : State) : distinctClaims s ↔ (s.claims.entries.map Entry.key).Nodup := by
  unfold distinctClaims List.Nodup
  rw [List.pairwise_map]

/-- The identities of the entries, in admission order. -/
def State.keys (s : State) : List (Byte × Byte) := s.claims.entries.map Entry.key

theorem distinctClaims_congr {s t : State} (h : t.keys = s.keys) (hd : distinctClaims s) : distinctClaims t :=
  (distinctClaims_iff t).2 ((congrArg List.Nodup h).mpr ((distinctClaims_iff s).1 hd))

theorem eq_of_key_eq {s : State} (hd : distinctClaims s) {x y : Entry} (hx : x ∈ s.claims.entries) (hy : y ∈ s.claims.entries)
    (h : x.key = y.key) : x = y :=
  List.inj_on_of_nodup_map ((distinctClaims_iff s).1 hd) hx hy h

theorem entry_of_mem {s : State} (hd : distinctClaims s) {e : Entry} (h : e ∈ s.claims.entries) : s.entry e.key = some e := by
  cases hx : s.entry e.key with
  | none => exact absurd (List.find?_eq_none.1 hx e h) (by simp)
  | some x => rw [eq_of_key_eq hd (State.mem_of_entry hx) h (entry_key hx)]

theorem entry_eq_none {s : State} {k : Byte × Byte} : s.entry k = none ↔ k ∉ s.keys := by
  simp [State.entry, State.keys]

theorem entry_congr {s t : State} (h : t.claims.entries = s.claims.entries) (k : Byte × Byte) : t.entry k = s.entry k := by
  simp [State.entry, h]

theorem bestWaiting_congr {s t : State} (h : t.claims.entries = s.claims.entries) : t.bestWaiting = s.bestWaiting := by
  simp [State.bestWaiting, State.waitingCandidates, h]

/-- The best WAITING candidate is in the table, WAITING and a candidate. -/
theorem bestWaiting_spec {s : State} {x : Entry} (h : s.bestWaiting = some x) :
    x ∈ s.claims.entries ∧ x.state = .waiting ∧ x.candidate = true := by
  simpa [State.waitingCandidates] using best_mem h

@[simp] theorem keys_setEntries (l : List Entry) (s : State) : (setEntries l s).keys = l.map Entry.key := rfl

theorem keys_congr {s t : State} (h : t.claims.entries = s.claims.entries) : t.keys = s.keys := by simp [State.keys, h]

theorem keys_updateEntry (k : Byte × Byte) {f : Entry → Entry} (hf : ∀ e, (f e).key = e.key) (s : State) :
    (updateEntry k f s).keys = s.keys := by
  simp only [updateEntry, State.keys, setEntries, State.setClaims_claims, List.map_map]
  refine List.map_congr_left fun e _ => ?_
  simp only [Function.comp_apply]
  split
  · exact hf e
  · rfl

@[simp] theorem keys_setEntryState (k : Byte × Byte) (st : EntryState) (s : State) : (setEntryState k st s).keys = s.keys :=
  keys_updateEntry k (fun _ => by rfl) s

theorem keys_removeEntry (k : Byte × Byte) (s : State) : (removeEntry k s).keys = s.keys.filter fun j => j != k := by
  simp only [removeEntry, State.keys, setEntries, State.setClaims_claims, List.filter_map]
  rfl

@[simp] theorem keys_admitEntry (e : Entry) (s : State) : (admitEntry e s).keys = s.keys ++ [e.key] := by
  simp [admitEntry, State.keys, setEntries]

theorem distinctClaims_removeEntry (k : Byte × Byte) {s : State} (hd : distinctClaims s) : distinctClaims (removeEntry k s) :=
  hd.filter _

theorem setEntryState_entry (k j : Byte × Byte) (st : EntryState) (s : State) :
    (setEntryState k st s).entry j = if j = k then (s.entry k).map (fun e => { e with state := st }) else s.entry j :=
  updateEntry_spec k j _ (fun _ => by rfl) s

/-! ### On-air changes -/

@[simp] theorem onAirChange_entry (old : Byte) (new : Option Entry) (s : State) (k : Byte × Byte) :
    (onAirChange old new s).entry k = s.entry k := entry_congr (by simp) k

@[simp] theorem keys_onAirChange (old : Byte) (new : Option Entry) (s : State) : (onAirChange old new s).keys = s.keys :=
  keys_congr (by simp)

/-- The state that a selection run or the filling of the slot gives to the entry `x`: it stands, or the entry is a WAITING candidate
that goes on air. -/
def MayGoOnAir (x : Entry) (st : EntryState) : Prop :=
  st = x.state ∨ (x.state = .waiting ∧ x.candidate = true ∧ st = .onAir)

/-- The entry that goes on air is the best WAITING candidate, and no other entry moves. -/
theorem setEntryState_onAir_entry {s : State} (hd : distinctClaims s) {x : Entry} (hx : s.bestWaiting = some x)
    {k : Byte × Byte} {e : Entry} (he : s.entry k = some e) :
    ∃ st, (setEntryState x.key .onAir s).entry k = some { e with state := st } ∧ MayGoOnAir e st := by
  obtain ⟨hmem, hwaiting, hcandidate⟩ := bestWaiting_spec hx
  rw [setEntryState_entry]
  split
  · next hk =>
    have heq : e = x := by
      rw [hk, entry_of_mem hd hmem] at he
      exact (Option.some.inj he).symm
    subst heq
    exact ⟨.onAir, by rw [← hk, he]; rfl, .inr ⟨hwaiting, hcandidate, rfl⟩⟩
  · exact ⟨e.state, he, .inl rfl⟩

theorem setEntryState_entry_none {s : State} {k j : Byte × Byte} {st : EntryState} (h : s.entry j = none) :
    (setEntryState k st s).entry j = none := by
  rw [entry_eq_none, keys_setEntryState, ← entry_eq_none]
  exact h

theorem fillSlot_entry {s : State} (hd : distinctClaims s) (old : Byte) (changed : Bool) {k : Byte × Byte} {e : Entry}
    (he : s.entry k = some e) :
    ∃ st, (fillSlot old changed s).entry k = some { e with state := st } ∧ MayGoOnAir e st := by
  unfold fillSlot
  split
  · next x hx =>
    rw [onAirChange_entry]
    exact setEntryState_onAir_entry hd hx he
  · refine ⟨e.state, ?_, .inl rfl⟩
    split
    · rw [onAirChange_entry, he]
    · exact he

@[simp] theorem keys_fillSlot (old : Byte) (changed : Bool) (s : State) : (fillSlot old changed s).keys = s.keys := by
  unfold fillSlot
  split
  · simp
  · split <;> simp

@[simp] theorem keys_select (s : State) : (select s).keys = s.keys := by
  rcases select_spec s with heq | ⟨x, _, _, heq⟩ | ⟨k, x, y, _, _, _, _, _, heq⟩ <;> rw [heq] <;> simp

/-- What a selection run makes of an entry: it stands, a WAITING candidate goes on air, or the entry in the slot goes to WAITING. -/
theorem select_entry {s : State} (hd : distinctClaims s) {k : Byte × Byte} {e : Entry} (he : s.entry k = some e) :
    ∃ st, (select s).entry k = some { e with state := st }
      ∧ (MayGoOnAir e st ∨ (s.selector.onAir = some k ∧ st = .waiting)) := by
  rcases select_spec s with heq | ⟨x, _, hx, heq⟩ | ⟨j, x, y, hj, hy, hx, _, _, heq⟩
  · exact ⟨e.state, by rw [heq, he], .inl (.inl rfl)⟩
  · rw [heq, onAirChange_entry]
    obtain ⟨st, hst, hmove⟩ := setEntryState_onAir_entry hd hx he
    exact ⟨st, hst, .inl hmove⟩
  · rw [heq, onAirChange_entry]
    obtain ⟨hmem, hwaiting, hcandidate⟩ := bestWaiting_spec hx
    simp only [setEntryState_entry]
    split
    · next hk =>
      have heq : e = x := by
        rw [hk, entry_of_mem hd hmem] at he
        exact (Option.some.inj he).symm
      subst heq
      refine ⟨.onAir, ?_, .inl (.inr ⟨hwaiting, hcandidate, rfl⟩)⟩
      rw [hk] at he
      split <;> simp_all
    · split
      · next hne hk =>
        rw [entry_key hy] at hk ⊢
        exact ⟨.waiting, by rw [← hk, he]; rfl, .inr ⟨hk ▸ hj, rfl⟩⟩
      · exact ⟨e.state, he, .inl (.inl rfl)⟩

theorem alike_setState (e : Entry) (st : EntryState) : Entry.alike { e with state := st } e := rfl

/-- A selection run leaves an entry of ENDING there, where the slot does not name it. -/
theorem select_entry_ending {s : State} (hd : distinctClaims s) {k : Byte × Byte} {e : Entry} (he : s.entry k = some e)
    (hending : e.state = .ending) (hslot : s.selector.onAir ≠ some k) : (select s).entry k = some e := by
  obtain ⟨st, hst, hmove⟩ := select_entry hd he
  rcases hmove with (heq | ⟨hw, _, _⟩) | ⟨hk, _⟩
  · rw [hst, heq]
  · rw [hw] at hending
    cases hending
  · exact absurd hk hslot

theorem select_entry_none {s : State} {k : Byte × Byte} (h : s.entry k = none) : (select s).entry k = none := by
  rw [entry_eq_none, keys_select, ← entry_eq_none]
  exact h

/-! ### Endings -/

@[simp] theorem activity_entry (s : State) (k : Byte × Byte) : (activity s).entry k = s.entry k := entry_congr (by simp) k

theorem updateEntry_ended_entry (k j : Byte × Byte) (cause : EndCause) (now : Time) (s : State) :
    (updateEntry k (Entry.ended cause now) s).entry j =
      if j = k then (s.entry k).map (Entry.ended cause now) else s.entry j :=
  updateEntry_spec k j _ (fun _ => by rfl) s

@[simp] theorem keys_ended (k : Byte × Byte) (cause : EndCause) (now : Time) (s : State) :
    (updateEntry k (Entry.ended cause now) s).keys = s.keys := keys_updateEntry k (fun _ => by rfl) s

/-- The state behind the ending of a live entry, before the slot is seen to. -/
def endingTold (k : Byte × Byte) (cause : EndCause) (e : Entry) (s : State) : State :=
  activity (tellEnding e cause (updateEntry k (Entry.ended cause s.clock.stationTime) s))

theorem endingTold_entries (k : Byte × Byte) (cause : EndCause) (e : Entry) (s : State) :
    (endingTold k cause e s).claims = (updateEntry k (Entry.ended cause s.clock.stationTime) s).claims := by
  simp [endingTold]

theorem endingTold_selector (k : Byte × Byte) (cause : EndCause) (e : Entry) (s : State) :
    (endingTold k cause e s).selector = s.selector := by simp [endingTold]

theorem endingTold_entry (k j : Byte × Byte) (cause : EndCause) (e : Entry) (s : State) :
    (endingTold k cause e s).entry j =
      if j = k then (s.entry k).map (Entry.ended cause s.clock.stationTime) else s.entry j := by
  rw [← updateEntry_ended_entry]
  exact entry_congr (by rw [endingTold_entries]) j

theorem keys_endingTold (k : Byte × Byte) (cause : EndCause) (e : Entry) (s : State) : (endingTold k cause e s).keys = s.keys := by
  rw [← keys_ended k cause s.clock.stationTime s]
  exact keys_congr (by rw [endingTold_entries])

@[simp] theorem keys_refillSlot (e : Entry) (s : State) : (refillSlot e s).keys = s.keys := by
  unfold refillSlot
  split
  · rw [keys_fillSlot]
    rfl
  · exact keys_select s

@[simp] theorem keys_endEntry (k : Byte × Byte) (cause : EndCause) (s : State) : (endEntry k cause s).keys = s.keys := by
  rcases endEntry_cases k cause s with heq | ⟨e, _, _, heq⟩ <;> rw [heq]
  rw [keys_refillSlot]
  exact keys_endingTold k cause e s

theorem live_iff {e : Entry} : e.live = true ↔ e.state ≠ .ending := by simp [Entry.live]

theorem not_live_iff {e : Entry} : e.live = false ↔ e.state = .ending := by simp [Entry.live]

/-- The slot behind an ending leaves an entry of ENDING, and moves another as a selection run does. -/
theorem refillSlot_entry {s : State} (hd : distinctClaims s) (gone : Entry) {k : Byte × Byte} {e : Entry}
    (he : s.entry k = some e) :
    ∃ st, (refillSlot gone s).entry k = some { e with state := st }
      ∧ (MayGoOnAir e st ∨ (gone.state ≠ .onAir ∧ s.selector.onAir = some k ∧ st = .waiting)) := by
  unfold refillSlot
  split
  · obtain ⟨st, hst, hmove⟩ := fillSlot_entry (s := s.setSelector { s.selector with onAir := none }) hd gone.origin true he
    exact ⟨st, hst, .inl hmove⟩
  · next hne =>
    obtain ⟨st, hst, hmove⟩ := select_entry hd he
    exact ⟨st, hst, hmove.imp_right fun h => ⟨hne, h⟩⟩

/-- The entry that ends has the fields of R14. -/
theorem endEntry_entry_self {s : State} (hd : distinctClaims s) {k : Byte × Byte} {cause : EndCause} {e : Entry}
    (he : s.entry k = some e) (hlive : e.state ≠ .ending) (hslot : slotFits s k e) :
    (endEntry k cause s).entry k = some (e.ended cause s.clock.stationTime) := by
  have htold : (endingTold k cause e s).entry k = some (e.ended cause s.clock.stationTime) := by
    rw [endingTold_entry, if_pos rfl, he]
    rfl
  rw [endEntry_of_live he (live_iff.2 hlive)]
  obtain ⟨st, hst, hmove⟩ := refillSlot_entry (distinctClaims_congr (keys_endingTold k cause e s) hd) e htold
  rw [endingTold_selector] at hmove
  rcases hmove with (heq | ⟨hw, _⟩) | ⟨hne, hk, _⟩
  · rw [heq] at hst
    exact hst
  · cases hw
  · exact absurd (hslot hk) hne

/-- Beside the entry that ends, the slot alone moves entries. -/
theorem endEntry_entry_other {s : State} (hd : distinctClaims s) {j k : Byte × Byte} {cause : EndCause} (hne : k ≠ j)
    {e : Entry} (he : s.entry k = some e) :
    ∃ st, (endEntry j cause s).entry k = some { e with state := st }
      ∧ (MayGoOnAir e st ∨ (s.selector.onAir = some k ∧ st = .waiting)) := by
  by_cases h : ∃ x, s.entry j = some x ∧ x.live = true
  · obtain ⟨x, hx, hlive⟩ := h
    have htold : (endingTold j cause x s).entry k = some e := by rw [endingTold_entry, if_neg hne, he]
    obtain ⟨st, hst, hmove⟩ := refillSlot_entry (distinctClaims_congr (keys_endingTold j cause x s) hd) x htold
    rw [endingTold_selector] at hmove
    rw [endEntry_of_live hx hlive]
    exact ⟨st, hst, hmove.imp_right fun h => h.2⟩
  · rw [endEntry_none j cause s fun x hx => not_live_iff.1 (Bool.eq_false_iff.2 fun hl => h ⟨x, hx, hl⟩)]
    exact ⟨e.state, he, .inl (.inl rfl)⟩

theorem endEntry_entry_none {s : State} {j k : Byte × Byte} {cause : EndCause} (h : s.entry k = none) :
    (endEntry j cause s).entry k = none := by
  rw [entry_eq_none, keys_endEntry, ← entry_eq_none]
  exact h

/-- Beside the entry that ends, every entry keeps its fields but its state, and none is made. -/
theorem endEntry_others {s : State} (hd : distinctClaims s) {j k : Byte × Byte} {cause : EndCause} (hne : k ≠ j) :
    (∀ x, s.entry k = some x → ∃ y, (endEntry j cause s).entry k = some y ∧ y.alike x)
    ∧ (s.entry k = none → (endEntry j cause s).entry k = none) := by
  refine ⟨fun x hx => ?_, endEntry_entry_none⟩
  obtain ⟨st, hst, -⟩ := endEntry_entry_other hd (cause := cause) hne hx
  exact ⟨_, hst, alike_setState x st⟩

/-! ### Victims -/

/-- The entry in hand, or the next one where it is `better` or there is none in hand. -/
def pickStep (better : Entry → Entry → Bool) (v : Option Entry) (e : Entry) : Option Entry :=
  match v with
  | none => some e
  | some b => if better b e then some e else some b

/-- The entry picked from a list: the first, and whenever a later one is `better`, that one. -/
def pick (better : Entry → Entry → Bool) (l : List Entry) : Option Entry := l.foldl (pickStep better) none

section
variable {better : Entry → Entry → Bool}

theorem pick_fold_keep {l : List Entry} {v : Entry} (h : ∀ x ∈ l, better v x = false) :
    l.foldl (pickStep better) (some v) = some v := by
  induction l with
  | nil => rfl
  | cons x l ih =>
    have hx : better v x = false := h x List.mem_cons_self
    simp only [List.foldl_cons, pickStep, hx, Bool.false_eq_true, if_false]
    exact ih fun y hy => h y (List.mem_cons_of_mem x hy)

/-- What is picked from a list with `b` in hand is `b` or is in the list. -/
theorem pick_fold_mem (l : List Entry) (b : Entry) : ∃ v, l.foldl (pickStep better) (some b) = some v ∧ (v = b ∨ v ∈ l) := by
  induction l generalizing b with
  | nil => exact ⟨b, rfl, .inl rfl⟩
  | cons x l ih =>
    rw [List.foldl_cons]
    unfold pickStep
    dsimp only
    split
    · obtain ⟨v, hv, hmem⟩ := ih x
      exact ⟨v, hv, .inr (hmem.elim (fun h => h ▸ List.mem_cons_self) (List.mem_cons_of_mem x))⟩
    · obtain ⟨v, hv, hmem⟩ := ih b
      exact ⟨v, hv, hmem.imp_right (List.mem_cons_of_mem x)⟩

theorem pick_mem {l : List Entry} {v : Entry} (h : pick better l = some v) : v ∈ l := by
  cases l with
  | nil => cases h
  | cons x l =>
    obtain ⟨w, hw, hmem⟩ := pick_fold_mem (better := better) l x
    have heq : w = v := Option.some.inj (hw.symm.trans h)
    subst heq
    exact hmem.elim (fun h => h ▸ List.mem_cons_self) (List.mem_cons_of_mem x)

theorem pick_eq_none {l : List Entry} : pick better l = none ↔ l = [] := by
  cases l with
  | nil => simp [pick]
  | cons x l =>
    obtain ⟨w, hw, -⟩ := pick_fold_mem (better := better) l x
    exact ⟨fun h => absurd (hw.symm.trans h) (by simp), fun h => absurd h (by simp)⟩

/-- The entry that beats each before it, and that none behind it beats, is picked. -/
theorem pick_eq_some {l m : List Entry} {v : Entry} (hl : ∀ x ∈ l, better x v = true) (hm : ∀ x ∈ m, better v x = false) :
    pick better (l ++ v :: m) = some v := by
  cases l with
  | nil => exact pick_fold_keep hm
  | cons x l =>
    obtain ⟨w, hw, hmem⟩ := pick_fold_mem (better := better) l x
    have hbeat : better w v = true := hl w (hmem.elim (fun h => h ▸ List.mem_cons_self) (List.mem_cons_of_mem x))
    have hv : pickStep better (some w) v = some v := by simp [pickStep, hbeat]
    have hx : (x :: l).foldl (pickStep better) none = some w := hw
    rw [pick, List.foldl_append, hx, List.foldl_cons, hv]
    exact pick_fold_keep hm

end

/-- An entry that stands before another does not stand behind it. -/
theorem not_sublist_swap {l : List Entry} (hl : l.Nodup) {x y : Entry} (h : [x, y].Sublist l) : ¬ [y, x].Sublist l := by
  intro h'
  obtain ⟨a, b, rfl, hax, hby⟩ := List.cons_sublist_iff.1 h
  have hy : y ∈ b := List.singleton_sublist.1 hby
  rcases List.sublist_append_iff.1 h' with ⟨u, v, huv, hu, hv⟩
  have hdisjoint := List.disjoint_of_nodup_append hl
  cases u with
  | nil =>
    have hvl : [y, x] = v := huv
    have hxb : x ∈ b := hv.subset (hvl ▸ List.mem_cons_of_mem y List.mem_cons_self)
    exact hdisjoint hax hxb
  | cons z u =>
    have hz : y = z := (List.cons.inj huv).1
    exact hdisjoint (hu.subset (hz ▸ List.mem_cons_self)) hy

theorem nodup_entries {s : State} (hd : distinctClaims s) : s.claims.entries.Nodup :=
  List.Nodup.of_map Entry.key ((distinctClaims_iff s).1 hd)

theorem sublist_of_append {l a b : List Entry} {x y : Entry} (hl : (a ++ y :: b).Sublist l) (hx : x ∈ a) : [x, y].Sublist l :=
  ((List.singleton_sublist.2 hx).append (List.singleton_sublist.2 List.mem_cons_self)).trans hl

theorem sublist_of_cons {l a b : List Entry} {x y : Entry} (hl : (a ++ y :: b).Sublist l) (hx : x ∈ b) : [y, x].Sublist l :=
  ((List.nil_sublist a).append ((List.singleton_sublist.2 hx).cons_cons y)).trans hl

/-- An entry that every other of a list falls behind, strictly or by its place, is picked from it. -/
theorem pick_of_first {better : Entry → Entry → Bool} {l m : List Entry} (hl : l.Nodup) (hm : m.Sublist l) {v : Entry} (hv : v ∈ m)
    (before : ∀ x ∈ m, x ≠ v → ¬ [v, x].Sublist l → better x v = true)
    (behind : ∀ x ∈ m, x ≠ v → ¬ [x, v].Sublist l → better v x = false) : pick better m = some v := by
  obtain ⟨a, b, rfl⟩ := List.append_of_mem hv
  have hnodup := hl.sublist hm
  refine pick_eq_some (fun x hx => ?_) (fun x hx => ?_)
  · refine before x (by simp [hx]) ?_ (not_sublist_swap hl (sublist_of_append hm hx))
    rintro rfl
    exact List.disjoint_of_nodup_append hnodup hx List.mem_cons_self
  · refine behind x (by simp [hx]) ?_ (not_sublist_swap hl (sublist_of_cons hm hx))
    rintro rfl
    exact (List.nodup_cons.1 hnodup.of_append_right).1 hx

theorem endingVictim_eq (s : State) : endingVictim s =
    pick (fun b e => decide (b.endedFor s.clock.stationTime < e.endedFor s.clock.stationTime))
      (s.claims.entries.filter fun e => !e.live && !e.isLocal) := by
  unfold endingVictim pick
  congr
  funext v e
  cases v <;> simp [pickStep]

theorem waitingVictim_eq (s : State) : waitingVictim s =
    pick (fun b e => decide (e.score ≤ b.score)) (s.claims.entries.filter fun e => e.state == .waiting && !e.isLocal) := by
  unfold waitingVictim pick
  congr
  funext v e
  cases v <;> simp [pickStep]

theorem endingVictim_mem {s : State} {v : Entry} (h : endingVictim s = some v) :
    v ∈ s.claims.entries ∧ v.state = .ending ∧ v.isLocal = false := by
  rw [endingVictim_eq] at h
  simpa [Entry.live] using pick_mem h

theorem waitingVictim_mem {s : State} {v : Entry} (h : waitingVictim s = some v) :
    v ∈ s.claims.entries ∧ v.state = .waiting ∧ v.isLocal = false := by
  rw [waitingVictim_eq] at h
  simpa using pick_mem h

theorem endingVictim_eq_none {s : State} :
    endingVictim s = none ↔ ∀ e ∈ s.claims.entries, e.state = .ending → e.isLocal = true := by
  rw [endingVictim_eq, pick_eq_none]
  simp [Entry.live]

theorem waitingVictim_eq_none {s : State} :
    waitingVictim s = none ↔ ∀ e ∈ s.claims.entries, e.state = .waiting → e.isLocal = true := by
  rw [waitingVictim_eq, pick_eq_none]
  simp

/-- The victim of the first step is the one the search finds. -/
theorem EndingVictim.found {s : State} {v : Entry} (hd : distinctClaims s) (h : EndingVictim s v) : endingVictim s = some v := by
  rw [endingVictim_eq]
  have hfirst (x : Entry) (hx : x ∈ s.claims.entries.filter fun e => !e.live && !e.isLocal) (hne : x ≠ v) := by
    have hx' : x ∈ s.claims.entries ∧ x.state = .ending ∧ x.isLocal = false := by simpa [Entry.live] using hx
    exact h.first x hx'.1 hx'.2.1 hx'.2.2 hne
  refine pick_of_first (nodup_entries hd) List.filter_sublist (by simp [Entry.live, h.held, h.remote, h.ending])
    (fun x hx hne hplace => ?_) (fun x hx hne _ => ?_)
  · rcases hfirst x hx hne with hlt | ⟨_, hsub⟩
    · exact decide_eq_true hlt
    · exact absurd hsub hplace
  · rcases hfirst x hx hne with hlt | ⟨heq, _⟩
    · exact decide_eq_false (by omega)
    · exact decide_eq_false (by omega)

/-- The victim of the second step is the one the search finds. -/
theorem WaitingVictim.found {s : State} {v : Entry} (hd : distinctClaims s) (h : WaitingVictim s v) :
    endingVictim s = none ∧ waitingVictim s = some v := by
  refine ⟨endingVictim_eq_none.2 fun e he hending => absurd hending (h.noEnding e he), ?_⟩
  rw [waitingVictim_eq]
  have hlowest (x : Entry) (hx : x ∈ s.claims.entries.filter fun e => e.state == .waiting && !e.isLocal) (hne : x ≠ v) := by
    have hx' : x ∈ s.claims.entries ∧ x.state = .waiting ∧ x.isLocal = false := by simpa using hx
    exact h.lowest x hx'.1 hx'.2.1 hx'.2.2 hne
  refine pick_of_first (nodup_entries hd) List.filter_sublist (by simp [h.held, h.remote, h.waiting])
    (fun x hx hne _ => ?_) (fun x hx hne hplace => ?_)
  · rcases hlowest x hx hne with hlt | ⟨heq, _⟩
    · exact decide_eq_true (by omega)
    · exact decide_eq_true (by omega)
  · rcases hlowest x hx hne with hlt | ⟨_, hsub⟩
    · exact decide_eq_false (by omega)
    · exact absurd hsub hplace

/-- A place made is the table as it is, or the table less a remote entry that is not ON_AIR. -/
theorem makeRoom_cases {takes : Entry → Bool} {s t : State} (h : makeRoom takes s = some t) :
    (s.claims.entries.length < 16 ∧ t = s)
    ∨ ∃ v ∈ s.claims.entries, v.state ≠ .onAir ∧ v.isLocal = false ∧ t = removeEntry v.key s := by
  rcases makeRoom_spec takes s t h with hroom | ⟨-, ⟨v, hv, ht⟩ | ⟨v, -, hv, -, ht⟩⟩
  · exact .inl hroom
  · obtain ⟨hmem, hstate, hremote⟩ := endingVictim_mem hv
    exact .inr ⟨v, hmem, by simp [hstate], hremote, ht⟩
  · obtain ⟨hmem, hstate, hremote⟩ := waitingVictim_mem hv
    exact .inr ⟨v, hmem, by simp [hstate], hremote, ht⟩

/-- An entry that leaves makes the table shorter. -/
theorem length_removeEntry_lt {s : State} {v : Entry} (hv : v ∈ s.claims.entries) :
    (removeEntry v.key s).claims.entries.length < s.claims.entries.length :=
  List.length_filter_lt_length_iff_exists.2 ⟨v, hv, by simp⟩

/-! ### The number of a newcomer -/

/-- A live local entry holds the number. -/
def numberHeld (l : List Entry) (n : Byte) : Bool := l.any fun e => e.isLocal && e.live && e.number == n

theorem numberHeld_iff {l : List Entry} {n : Byte} :
    numberHeld l n = true ↔ ∃ e ∈ l, e.isLocal = true ∧ e.state ≠ .ending ∧ e.number = n := by
  simp [numberHeld, Entry.live, and_assoc]

theorem ofNat_add_one (n : Byte) (i : Nat) : n + 1 + BitVec.ofNat 8 i = n + BitVec.ofNat 8 (i + 1) := by
  rw [BitVec.add_assoc, Nat.add_comm i 1, BitVec.ofNat_add]
  rfl

/-- The search passes over numbers that are held, up to the first that is not or to its end. -/
theorem freeNumber_search (l : List Entry) (fuel : Nat) (n : Byte) :
    ∃ i ≤ fuel, freeNumber l fuel n = n + BitVec.ofNat 8 i ∧ (∀ j < i, numberHeld l (n + BitVec.ofNat 8 j) = true)
      ∧ (i < fuel → numberHeld l (n + BitVec.ofNat 8 i) = false) := by
  induction fuel generalizing n with
  | zero => exact ⟨0, Nat.le_refl 0, by simp [freeNumber], fun _ h => absurd h (Nat.not_lt_zero _), fun h => absurd h (by omega)⟩
  | succ k ih =>
    unfold freeNumber
    split
    · next hheld =>
      obtain ⟨i, hi, heq, hpassed, hfree⟩ := ih (n + 1)
      refine ⟨i + 1, by omega, heq.trans (ofNat_add_one n i), fun j hj => ?_, fun hlt => ?_⟩
      · cases j with
        | zero => simpa [numberHeld] using hheld
        | succ j => exact ofNat_add_one n j ▸ hpassed j (by omega)
      · exact ofNat_add_one n i ▸ hfree (by omega)
    · next hfree => exact ⟨0, Nat.zero_le _, by simp, fun _ h => absurd h (Nat.not_lt_zero _), fun _ => by simpa [numberHeld] using hfree⟩

/-- A table of entries cannot hold more numbers than it has entries. -/
theorem passed_le {l : List Entry} {n : Byte} {i : Nat} (hi : i ≤ 256)
    (h : ∀ j < i, numberHeld l (n + BitVec.ofNat 8 j) = true) : i ≤ l.length := by
  have hnodup : ((List.range i).map fun j => n + BitVec.ofNat 8 j).Nodup := by
    refine List.nodup_range.map_on fun a ha b hb heq => ?_
    have ha := List.mem_range.1 ha
    have hb := List.mem_range.1 hb
    have := congrArg BitVec.toNat heq
    have := n.isLt
    simp only [BitVec.toNat_add, BitVec.toNat_ofNat] at *
    omega
  have hsub : ((List.range i).map fun j => n + BitVec.ofNat 8 j) ⊆ l.map Entry.number := by
    intro m hm
    obtain ⟨j, hj, rfl⟩ := List.mem_map.1 hm
    obtain ⟨e, he, -, -, heq⟩ := numberHeld_iff.1 (h j (List.mem_range.1 hj))
    exact List.mem_map.2 ⟨e, he, heq⟩
  simpa using (hnodup.subperm hsub).length_le

/-- R19: the number found is free, and those passed over are held. -/
theorem freeNumber_spec {l : List Entry} (hl : l.length ≤ 16) (n : Byte) :
    numberHeld l (freeNumber l (l.length + 1) n) = false
    ∧ ∀ m : Byte, (m - n).toNat < (freeNumber l (l.length + 1) n - n).toNat → numberHeld l m = true := by
  obtain ⟨i, hi, heq, hpassed, hfree⟩ := freeNumber_search l (l.length + 1) n
  have hle := passed_le (by omega) hpassed
  rw [heq]
  refine ⟨hfree (by omega), fun m hm => ?_⟩
  have hdist : (n + BitVec.ofNat 8 i - n).toNat = i := by
    have := n.isLt
    simp only [BitVec.toNat_sub, BitVec.toNat_add, BitVec.toNat_ofNat]
    omega
  have hback : n + BitVec.ofNat 8 (m - n).toNat = m := by
    apply BitVec.eq_of_toNat_eq
    have := n.isLt
    have := m.isLt
    simp only [BitVec.toNat_sub, BitVec.toNat_add, BitVec.toNat_ofNat]
    omega
  rw [← hback]
  exact hpassed _ (hdist ▸ hm)

end Sys2Proof.Machine
end
section
/-! The Claim Table and the slot stay sound (R1, R4, R43, R53, R59). -/

namespace Sys2Proof.Machine

/-- What `TableSound` says of the entries alone. -/
structure TableBody (s : State) : Prop where
  room : s.claims.entries.length ≤ Config.claimCapacity
  distinct : distinctClaims s
  candidacy : candidacyHolds s
  locality : localityHolds s

/-- The identities of the ON_AIR entries. -/
def State.slotKeys (s : State) : List (Byte × Byte) := (s.claims.entries.filter fun e => e.state == .onAir).map Entry.key

theorem mem_slotKeys {s : State} {k : Byte × Byte} : k ∈ s.slotKeys ↔ ∃ e ∈ s.claims.entries, e.state = .onAir ∧ e.key = k := by
  simp [State.slotKeys, and_assoc]

theorem slotKeys_congr {s t : State} (h : t.claims.entries = s.claims.entries) : t.slotKeys = s.slotKeys := by
  simp [State.slotKeys, h]

theorem TableBody.congr {s t : State} (h : TableBody s) (he : t.claims.entries = s.claims.entries) (hs : t.settings = s.settings) :
    TableBody t where
  room := by rw [he]; exact h.room
  distinct := by unfold distinctClaims; rw [he]; exact h.distinct
  candidacy := by unfold candidacyHolds; rw [he, hs]; exact h.candidacy
  locality := by unfold localityHolds; rw [he, hs]; exact h.locality

namespace TableSound
variable {s t : State}

theorem body (h : TableSound s) : TableBody s := ⟨h.room, h.distinct, h.candidacy, h.locality⟩

theorem of_body (h : TableBody s) (hslot : s.slotKeys = s.selector.onAir.toList) (hlines : feedLinesAgree s)
    (hidle : s.loader.runState ≠ .running → s.claims.entries = []) : TableSound s :=
  ⟨h.room, h.distinct, hslot, h.candidacy, h.locality, hlines, hidle⟩

theorem congr (h : TableSound s) (hentries : t.claims.entries = s.claims.entries)
    (honAir : t.selector.onAir = s.selector.onAir) (hfeed : t.selector.feedSelect = s.selector.feedSelect)
    (henable : t.selector.feedEnable = s.selector.feedEnable) (hsettings : t.settings = s.settings)
    (hloader : t.loader = s.loader) : TableSound t := by
  refine of_body (h.body.congr hentries hsettings) ((slotKeys_congr hentries).trans (honAir ▸ h.slot)) ?_ (fun hr => ?_)
  · unfold feedLinesAgree
    rw [honAir, hfeed, henable, hsettings, hloader]
    exact h.lines
  · rw [hentries]
    exact h.idle (hloader ▸ hr)

/-- In RUNNING the slot names at most one entry, which is ON_AIR, and no other is. -/
theorem slotKeys_eq (h : TableSound s) : s.slotKeys = s.selector.onAir.toList := h.slot

theorem onAir_iff (h : TableSound s) {e : Entry} (he : e ∈ s.claims.entries) :
    e.state = .onAir ↔ s.selector.onAir = some e.key := by
  have hmem : e.key ∈ s.slotKeys ↔ s.selector.onAir = some e.key := by simp [h.slotKeys_eq, Option.mem_toList]
  rw [← hmem, mem_slotKeys]
  refine ⟨fun hair => ⟨e, he, hair, rfl⟩, fun ⟨x, hx, hair, hk⟩ => ?_⟩
  rwa [← eq_of_key_eq h.distinct hx he hk]

end TableSound

/-! ### Entries that keep their claim -/

/-- Each entry becomes one with the same identity, claim and candidacy, ON_AIR only where it is a candidate. -/
theorem TableBody.mapEntries {s : State} (h : TableBody s) {g : Entry → Entry}
    (hkey : ∀ e, (g e).key = e.key) (hlocal : ∀ e, (g e).isLocal = e.isLocal) (hareas : ∀ e, (g e).areas = e.areas)
    (hcandidate : ∀ e, (g e).candidate = e.candidate)
    (hair : ∀ e ∈ s.claims.entries, (g e).state = .onAir → e.state = .onAir ∨ e.candidate = true) :
    TableBody (setEntries (s.claims.entries.map g) s) where
  room := (List.length_map g).trans_le h.room
  distinct := (List.pairwise_map).2 (h.distinct.imp fun hne => by rwa [hkey, hkey])
  candidacy := by
    intro x hx
    obtain ⟨e, he, rfl⟩ := List.mem_map.1 hx
    obtain ⟨hfour, honAir⟩ := h.candidacy e he
    have horigin : (g e).origin = e.origin := congrArg Prod.fst (hkey e)
    refine ⟨?_, fun hstate => ?_⟩
    · rw [hcandidate, hareas, horigin]
      exact hfour
    · rw [hcandidate]
      exact (hair e he hstate).elim honAir id
  locality := by
    intro x hx
    obtain ⟨e, he, rfl⟩ := List.mem_map.1 hx
    have horigin : (g e).origin = e.origin := congrArg Prod.fst (hkey e)
    rw [hlocal, horigin]
    exact h.locality e he

theorem slotKeys_map {s : State} {g : Entry → Entry} (hkey : ∀ e, (g e).key = e.key)
    (hstate : ∀ e, (g e).state = e.state) : (setEntries (s.claims.entries.map g) s).slotKeys = s.slotKeys := by
  have hair : (fun e : Entry => e.state == .onAir) ∘ g = fun e => e.state == .onAir := by
    funext e
    simp [hstate]
  have hmap : Entry.key ∘ g = Entry.key := funext hkey
  simp only [State.slotKeys, setEntries, State.setClaims_claims, List.filter_map, List.map_map, hair, hmap]

/-- Changes that keep every entry's claim and state keep the table sound. -/
theorem TableSound.mapEntries {s : State} (h : TableSound s) {g : Entry → Entry} (hg : ∀ e : Entry, e.SameClaim (g e)) :
    TableSound (setEntries (s.claims.entries.map g) s) := by
  refine .of_body (h.body.mapEntries (fun e => (hg e).key) (fun e => (hg e).isLocal) (fun e => (hg e).areas)
    (fun e => (hg e).candidate) fun e _ hair => .inl ((hg e).state ▸ hair)) ?_ h.lines (fun hr => ?_)
  · rw [slotKeys_map (fun e => (hg e).key) fun e => (hg e).state]
    exact h.slot
  · show s.claims.entries.map g = []
    rw [h.idle hr]
    rfl

theorem Entry.SameClaim.rfl' (e : Entry) : e.SameClaim e := ⟨rfl, rfl, rfl, rfl, rfl⟩

theorem TableSound.updateEntry {s : State} (h : TableSound s) (k : Byte × Byte) {f : Entry → Entry}
    (hf : ∀ e : Entry, e.SameClaim (f e)) : TableSound (updateEntry k f s) :=
  h.mapEntries fun e => by
    split
    · exact hf e
    · exact .rfl' e

/-! ### Entries that go on air, wait or end -/

theorem TableBody.updateEntry {s : State} (h : TableBody s) (k : Byte × Byte) {f : Entry → Entry}
    (hkey : ∀ e, (f e).key = e.key) (hlocal : ∀ e, (f e).isLocal = e.isLocal) (hareas : ∀ e, (f e).areas = e.areas)
    (hcandidate : ∀ e, (f e).candidate = e.candidate)
    (hair : ∀ e ∈ s.claims.entries, e.key = k → (f e).state = .onAir → e.candidate = true) : TableBody (updateEntry k f s) := by
  refine h.mapEntries (fun e => ?_) (fun e => ?_) (fun e => ?_) (fun e => ?_) (fun e he hstate => ?_)
  · split
    · exact hkey e
    · rfl
  · split
    · exact hlocal e
    · rfl
  · split
    · exact hareas e
    · rfl
  · split
    · exact hcandidate e
    · rfl
  · split at hstate
    · next hk => exact .inr (hair e he (by simpa using hk) hstate)
    · exact .inl hstate

/-- An entry that leaves the air leaves the others there. -/
theorem slotKeys_updateEntry {s : State} {k : Byte × Byte} {f : Entry → Entry} (hstate : ∀ e, (f e).state ≠ .onAir) :
    (updateEntry k f s).slotKeys = s.slotKeys.filter fun j => j != k := by
  simp only [updateEntry, State.slotKeys, setEntries, State.setClaims_claims, beq_iff_eq]
  induction s.claims.entries with
  | nil => rfl
  | cons e l ih =>
    by_cases hk : e.key = k
    · by_cases hair : e.state = .onAir <;> simp [hk, hstate, hair, ih]
    · by_cases hair : e.state = .onAir <;> simp [hk, hair, ih]

/-- The entry that goes on air is alone there, where none was. -/
theorem slotKeys_setEntryState_onAir {s : State} {x : Entry} (hd : distinctClaims s) (hx : x ∈ s.claims.entries)
    (hempty : s.slotKeys = []) : (setEntryState x.key .onAir s).slotKeys = [x.key] := by
  have hnone (e : Entry) (he : e ∈ s.claims.entries) : e.state ≠ .onAir := fun hair =>
    absurd (hempty ▸ mem_slotKeys.2 ⟨e, he, hair, rfl⟩) List.not_mem_nil
  have hkeys : (setEntryState x.key .onAir s).slotKeys = s.keys.filter fun j => j == x.key := by
    simp only [setEntryState, updateEntry, State.slotKeys, State.keys, setEntries, State.setClaims_claims]
    clear hempty hx hd
    generalize s.claims.entries = l at hnone
    induction l with
    | nil => rfl
    | cons e l ih =>
      have ih := ih fun o ho => hnone o (List.mem_cons_of_mem e ho)
      have he : e.state ≠ .onAir := hnone e List.mem_cons_self
      by_cases hk : e.key = x.key
      · simp only [List.map_cons, hk, beq_self_eq_true, if_true, List.filter_cons]
        exact congrArg₂ List.cons hk ih
      · simp only [List.map_cons, beq_iff_eq, hk, he, if_false, List.filter_cons]
        simpa using ih
  rw [hkeys, State.keys, List.filter_beq, List.count_eq_one_of_mem ((distinctClaims_iff s).1 hd) (List.mem_map_of_mem hx)]
  rfl

/-- A change in the slot shows the entry that is alone on air, or none. -/
theorem TableBody.onAirChange {s : State} (h : TableBody s) (hr : s.running = true) (old : Byte) {new : Option Entry}
    (hslot : s.slotKeys = (new.map Entry.key).toList) : TableSound (onAirChange old new s) := by
  obtain ⟨hselector, -, hclaims, -⟩ := onAirChange_spec old new s
  refine .of_body (h.congr (by rw [hclaims]) (by simp)) ?_ ?_ ?_
  · rw [slotKeys_congr (s := s) (by rw [hclaims]), hslot, hselector]
  · have hheld := free_of_running hr
    unfold feedLinesAgree
    rw [hselector]
    cases new with
    | none => exact ⟨rfl, rfl⟩
    | some e => simp [hheld, Entry.key]
  · intro hidle
    exact absurd (runState_of_running hr) (by simpa using hidle)

theorem TableBody.setEntryState {s : State} (h : TableBody s) (k : Byte × Byte) {st : EntryState}
    (hair : st = .onAir → ∀ e ∈ s.claims.entries, e.key = k → e.candidate = true) : TableBody (setEntryState k st s) :=
  h.updateEntry k (fun _ => by rfl) (fun _ => by rfl) (fun _ => by rfl) (fun _ => by rfl) fun e he hk hst => hair hst e he hk

/-- The best WAITING candidate goes on air, where no entry is. -/
theorem TableBody.fill {s : State} (h : TableBody s) (hr : s.running = true) (hempty : s.slotKeys = []) (old : Byte) {x : Entry}
    (hx : x ∈ s.claims.entries) (hcandidate : x.candidate = true) :
    TableSound (Machine.onAirChange old (some x) (Machine.setEntryState x.key .onAir s)) := by
  refine (h.setEntryState x.key fun _ e he hk => ?_).onAirChange (State.running_congr (by simp) hr) old
    (slotKeys_setEntryState_onAir h.distinct hx hempty)
  rwa [eq_of_key_eq h.distinct he hx hk]

/-- The slot behind an entry that has left the air. -/
theorem TableBody.fillSlot {s : State} (h : TableBody s) (hr : s.running = true) (hempty : s.slotKeys = []) (old : Byte) :
    TableSound (fillSlot old true s) := by
  unfold Machine.fillSlot
  split
  · next x hx =>
    obtain ⟨hmem, -, hcandidate⟩ := bestWaiting_spec hx
    exact h.fill hr hempty old hmem hcandidate
  · exact h.onAirChange hr old (new := none) hempty

theorem TableSound.select {s : State} (h : TableSound s) (hr : s.running = true) : TableSound (select s) := by
  rcases select_spec s with heq | ⟨x, hnone, hx, heq⟩ | ⟨k, x, y, hk, hy, hx, _, _, heq⟩ <;> rw [heq]
  · exact h
  · obtain ⟨hmem, -, hcandidate⟩ := bestWaiting_spec hx
    exact h.body.fill hr (by rw [h.slotKeys_eq, hnone]; rfl) 0 hmem hcandidate
  · obtain ⟨hmem, hwaiting, hcandidate⟩ := bestWaiting_spec hx
    have hemptied : (setEntryState y.key .waiting s).slotKeys = [] := by
      rw [setEntryState, slotKeys_updateEntry (fun _ => by simp), h.slotKeys_eq, hk, entry_key hy]
      simp
    have hbody : TableBody (setEntryState y.key .waiting s) := h.body.setEntryState _ nofun
    have hmem' : x ∈ (setEntryState y.key .waiting s).claims.entries := by
      refine List.mem_map.2 ⟨x, hmem, ?_⟩
      split <;> simp [← hwaiting]
    exact hbody.fill (State.running_congr (by simp) hr) hemptied y.origin hmem' hcandidate

theorem TableSound.endEntry {s : State} (h : TableSound s) (hr : s.running = true) (k : Byte × Byte) (cause : EndCause) :
    TableSound (endEntry k cause s) := by
  rcases endEntry_cases k cause s with heq | ⟨e, he, _, heq⟩ <;> rw [heq]
  · exact h
  · have hmem := State.mem_of_entry he
    have hkey := entry_key he
    have hended : TableBody (Machine.updateEntry k (Entry.ended cause s.clock.stationTime) s) :=
      h.body.updateEntry k (fun _ => by rfl) (fun _ => by rfl) (fun _ => by rfl) (fun _ => by rfl) fun _ _ _ => nofun
    have hkeys : (Machine.updateEntry k (Entry.ended cause s.clock.stationTime) s).slotKeys = s.slotKeys.filter fun j => j != k :=
      slotKeys_updateEntry (fun _ => nofun)
    have hclaims := endingTold_entries k cause e s
    have hbody : TableBody (endingTold k cause e s) := hended.congr (by rw [hclaims]) (by simp [endingTold])
    have hslot : (endingTold k cause e s).slotKeys = s.slotKeys.filter fun j => j != k := by
      rw [← hkeys]
      exact slotKeys_congr (by rw [hclaims])
    have hr' : (endingTold k cause e s).running = true := State.running_congr (by simp [endingTold]) hr
    show TableSound (refillSlot e (endingTold k cause e s))
    unfold refillSlot
    split
    · next hair =>
      have honAir := (h.onAir_iff hmem).1 hair
      have hempty : (endingTold k cause e s).slotKeys = [] := by
        rw [hslot, h.slotKeys_eq, honAir, hkey]
        simp
      exact (hbody.congr (t := (endingTold k cause e s).setSelector
        { (endingTold k cause e s).selector with onAir := none }) rfl rfl).fillSlot hr' hempty e.origin
    · next hair =>
      refine TableSound.select (.of_body hbody ?_ ?_ ?_) hr'
      · rw [hslot, endingTold_selector, ← h.slotKeys_eq, List.filter_eq_self]
        intro j hj
        obtain ⟨x, hx, hxair, rfl⟩ := mem_slotKeys.1 hj
        simp only [bne_iff_ne, ne_eq]
        intro hxk
        exact hair (eq_of_key_eq h.distinct hx hmem (hxk.trans hkey.symm) ▸ hxair)
      · have hlines := h.lines
        unfold feedLinesAgree at hlines ⊢
        rw [endingTold_selector]
        simpa [endingTold] using hlines
      · exact fun hidle => absurd (runState_of_running hr') hidle

/-! ### Entries that leave and join -/

/-- Entries that are not ON_AIR leave. -/
theorem TableSound.filterEntries {s : State} (h : TableSound s) (hr : s.running = true) {stays : Entry → Bool}
    (hstays : ∀ e ∈ s.claims.entries, stays e = false → e.state ≠ .onAir) :
    TableSound (setEntries (s.claims.entries.filter stays) s) := by
  refine .of_body ⟨(List.length_filter_le _ _).trans h.room, h.distinct.filter _,
    fun e he => h.candidacy e (List.mem_of_mem_filter he), fun e he => h.locality e (List.mem_of_mem_filter he)⟩ ?_ h.lines
    fun hidle => absurd (runState_of_running hr) hidle
  rw [show (setEntries (s.claims.entries.filter stays) s).selector = s.selector from rfl, ← h.slotKeys_eq]
  simp only [State.slotKeys, setEntries, State.setClaims_claims, List.filter_filter]
  refine congrArg _ (List.filter_congr fun e he => ?_)
  cases hstay : stays e with
  | true => simp
  | false => simp [hstays e he hstay]

theorem TableSound.removeEntry {s : State} (h : TableSound s) (hr : s.running = true) {k : Byte × Byte}
    (hk : ∀ e, s.entry k = some e → e.state ≠ .onAir) : TableSound (removeEntry k s) := by
  refine h.filterEntries hr fun e he hstay => hk e ?_
  have hkey : e.key = k := by simpa using hstay
  rw [← hkey]
  exact entry_of_mem h.distinct he

/-- A WAITING entry of a new identity joins a table with room. -/
theorem TableSound.admitEntry {s : State} (h : TableSound s) (hr : s.running = true) {e : Entry}
    (hroom : s.claims.entries.length < 16) (hfresh : s.entry e.key = none) (hwaiting : e.state = .waiting)
    (hcandidate : e.candidate = s.settings.isCandidate e.areas e.origin) (hlocal : e.isLocal = (e.origin == s.settings.station)) :
    TableSound (admitEntry e s) := by
  have hnew (x : Entry) (hx : x ∈ s.claims.entries ++ [e]) : x ∈ s.claims.entries ∨ x = e := by simpa using hx
  refine .of_body ⟨?_, ?_, fun x hx => ?_, fun x hx => ?_⟩ ?_ h.lines fun hidle => absurd (runState_of_running hr) hidle
  · exact (List.length_append.trans (congrArg _ List.length_singleton)).trans_le hroom
  · refine (distinctClaims_iff _).2 ?_
    show (Machine.admitEntry e s).keys.Nodup
    rw [keys_admitEntry]
    exact ((distinctClaims_iff s).1 h.distinct).append (List.nodup_singleton _)
      (List.disjoint_singleton.2 (entry_eq_none.1 hfresh))
  · rcases hnew x hx with hx | rfl
    · exact h.candidacy x hx
    · exact ⟨hcandidate, fun hair => by rw [hwaiting] at hair; cases hair⟩
  · rcases hnew x hx with hx | rfl
    · exact h.locality x hx
    · exact hlocal
  · rw [show (Machine.admitEntry e s).selector = s.selector from rfl, ← h.slotKeys_eq]
    simp [State.slotKeys, Machine.admitEntry, setEntries, hwaiting]

/-- A place made leaves the table sound and with room. -/
theorem TableSound.makeRoom {takes : Entry → Bool} {s t : State} (h : TableSound s) (hr : s.running = true)
    (hmake : makeRoom takes s = some t) : TableSound t ∧ t.claims.entries.length < 16 := by
  rcases makeRoom_cases hmake with ⟨hroom, rfl⟩ | ⟨v, hv, hair, _, rfl⟩
  · exact ⟨h, hroom⟩
  · refine ⟨h.removeEntry hr fun e he => ?_, (length_removeEntry_lt hv).trans_le h.room⟩
    rw [entry_of_mem h.distinct hv] at he
    cases he
    exact hair

/-! ### A local claim, in parts -/

/-- R19: the number that a local claim takes. -/
def drawnNumber (s : State) : Byte := freeNumber s.claims.entries (s.claims.entries.length + 1) s.claims.nextNumber

/-- R19: the number is taken, and an entry that has it is freed. -/
def numberTaken (s : State) : State :=
  removeEntry (s.settings.station, drawnNumber s) (s.setClaims { s.claims with nextNumber := drawnNumber s + 1 })

/-- R20: the new entry stands last. -/
def localAdmitted (c : Fin 5) (s : State) : State := admitEntry (newLocalEntry (numberTaken s) c (drawnNumber s)) (numberTaken s)

/-- R20: the first CLAIM of cue source `c` with this number. -/
def firstClaim (cfg : Settings) (c : Fin 5) (number : Byte) : FrameBody :=
  .claim number cfg.sources[c].cls cfg.sources[c].areas cfg.sources[c].label 0

/-- R20: the claim is made in a table with room. -/
def localMade (c : Fin 5) (s : State) : State :=
  select (activity (offer (firstClaim s.settings c (drawnNumber s)) (localAdmitted c s)))

theorem createLocal_eq {c : Fin 5} {s t : State} (h : makeRoom (fun _ => true) s = some t) :
    createLocal c s = (localMade c t, some (drawnNumber t)) := by
  unfold createLocal
  rw [h]
  rfl

theorem createLocal_eq_none {c : Fin 5} {s : State} (h : makeRoom (fun _ => true) s = none) : createLocal c s = (s, none) := by
  unfold createLocal
  rw [h]

/-- An entry in ENDING is the only one that can have a number that is drawn. -/
theorem TableSound.ending_of_drawn {s : State} (h : TableSound s) {e : Entry}
    (he : s.entry (s.settings.station, drawnNumber s) = some e) :
    e.state = .ending := by
  have hfree := (freeNumber_spec h.room s.claims.nextNumber).1
  have hmem := State.mem_of_entry he
  have hkey := entry_key he
  by_contra hstate
  have hlocal : e.isLocal = true := by
    rw [h.locality e hmem]
    exact beq_iff_eq.2 (congrArg Prod.fst hkey)
  have hheld := numberHeld_iff.2 ⟨e, hmem, hlocal, hstate, congrArg Prod.snd hkey⟩
  exact Bool.false_ne_true (hfree.symm.trans hheld)

theorem removeEntry_entry_self (k : Byte × Byte) (s : State) : (removeEntry k s).entry k = none := by
  rw [removeEntry_spec, if_pos rfl]

theorem TableSound.localMade {s : State} (h : TableSound s) (hr : s.running = true) (hroom : s.claims.entries.length < 16)
    (c : Fin 5) : TableSound (localMade c s) := by
  have hcounted : TableSound (s.setClaims { s.claims with nextNumber := drawnNumber s + 1 }) := h.congr rfl rfl rfl rfl rfl rfl
  have htaken : TableSound (numberTaken s) := hcounted.removeEntry hr fun e he => by
    rw [h.ending_of_drawn he]
    exact nofun
  have hadmitted : TableSound (localAdmitted c s) := htaken.admitEntry (State.running_congr (by simp [numberTaken]) hr)
    ((List.length_filter_le _ _).trans_lt hroom) (removeEntry_entry_self _ _) rfl rfl (beq_self_eq_true _).symm
  have hoffered : TableSound (activity (offer (firstClaim s.settings c (drawnNumber s)) (localAdmitted c s))) :=
    hadmitted.congr (by simp) (by simp) (by simp) (by simp) (by simp) (by simp)
  exact hoffered.select (State.running_congr (by simp [localAdmitted, numberTaken]) hr)

theorem TableSound.createLocal {s : State} (h : TableSound s) (hr : s.running = true) (c : Fin 5) :
    TableSound (createLocal c s).1 := by
  cases hmake : Machine.makeRoom (fun _ => true) s with
  | none => rw [createLocal_eq_none hmake]; exact h
  | some t =>
    rw [createLocal_eq hmake]
    obtain ⟨hsound, hroom⟩ := h.makeRoom hr hmake
    exact hsound.localMade (State.running_congr (makeRoom_loader hmake) hr) hroom c

theorem TableSound.considerClaim {s : State} (h : TableSound s) (hr : s.running = true) {o n : Byte} (cls : ClaimClass)
    (areas label : Byte) (k : Nat) (ho : o ≠ s.settings.station) (hended : ∀ e, s.entry (o, n) = some e → e.live = false) :
    TableSound (considerClaim o n cls areas label k s) := by
  unfold Machine.considerClaim
  split
  · exact h.congr rfl rfl rfl rfl rfl rfl
  · have hfreed := h.removeEntry hr (k := (o, n)) fun e he => by
      rw [not_live_iff.1 (hended e he)]
      exact nofun
    dsimp only
    split
    · exact hfreed.congr (by simp) (by simp) (by simp) (by simp) (by simp) (by simp)
    · next t hmake =>
      obtain ⟨hsound, hroom⟩ := hfreed.makeRoom hr hmake
      have hrunning : t.running = true := State.running_congr (by simp [makeRoom_loader hmake]) hr
      have hfresh : t.entry (o, n) = none := by
        have hgone := removeEntry_entry_self (o, n) s
        rcases makeRoom_eq _ _ _ hmake with rfl | ⟨j, rfl⟩
        · exact hgone
        · rw [removeEntry_spec, hgone]
          exact ite_self none
      have hsettings : t.settings = s.settings := by
        rcases makeRoom_eq _ _ _ hmake with rfl | ⟨j, rfl⟩ <;> simp
      have hadmitted := hsound.admitEntry (e := newRemoteEntry (Machine.removeEntry (o, n) s) o n cls areas label k) hrunning
        hroom hfresh rfl (by rw [hsettings]; rfl) (by rw [hsettings]; exact (beq_eq_false_iff_ne.2 ho).symm)
      exact (hadmitted.congr (by simp) (by simp) (by simp) (by simp) (by simp) (by simp)).select
        (State.running_congr (by simp) hrunning)

/-! ### An empty table -/

/-- An empty table with an empty slot is sound. -/
theorem tableSound_empty {s : State} (he : s.claims.entries = []) (hslot : s.selector.onAir = none)
    (hfeed : s.selector.feedSelect = 0) (henable : s.selector.feedEnable = false) : TableSound s where
  room := by rw [he]; exact Nat.zero_le _
  distinct := by unfold distinctClaims; rw [he]; exact .nil
  slot := by unfold slotAgrees; rw [he, hslot]; rfl
  candidacy := by unfold candidacyHolds; rw [he]; exact fun _ h => absurd h List.not_mem_nil
  locality := by unfold localityHolds; rw [he]; exact fun _ h => absurd h List.not_mem_nil
  lines := by unfold feedLinesAgree; rw [hslot]; exact ⟨hfeed, henable⟩
  idle := fun _ => he

/-- A sound table that is empty has an empty slot. -/
theorem TableSound.slot_of_empty {s : State} (h : TableSound s) (he : s.claims.entries = []) :
    s.selector.onAir = none ∧ s.selector.feedSelect = 0 ∧ s.selector.feedEnable = false := by
  have hslot : s.selector.onAir = none := by
    have := h.slotKeys_eq
    rw [State.slotKeys, he] at this
    exact Option.toList_eq_nil_iff.1 this.symm
  have hlines := h.lines
  unfold feedLinesAgree at hlines
  rw [hslot] at hlines
  exact ⟨hslot, hlines⟩

theorem keptByActs_tableSound : KeptByActs TableSound where
  clock := fun _ _ _ h => h.congr rfl rfl rfl rfl rfl rfl
  post := fun _ _ _ _ _ h => h.congr (by simp) (by simp) (by simp) (by simp) (by simp) (by simp)
  returns := fun _ _ h => h.congr rfl rfl rfl rfl rfl rfl
  count := fun _ _ _ h => h.congr rfl rfl rfl rfl rfl rfl
  offer := fun _ _ _ _ h => h.congr (by simp) (by simp) (by simp) (by simp) (by simp) (by simp)
  presence := fun _ _ _ h => h.congr rfl rfl rfl rfl rfl rfl
  pendingName := fun _ _ _ h => h.congr rfl rfl rfl rfl rfl rfl
  applied := fun _ _ _ h => h.congr rfl rfl rfl rfl rfl rfl
  display := fun _ h => h.congr rfl rfl rfl rfl rfl rfl
  cells := fun _ _ _ _ h => h.congr rfl rfl rfl rfl rfl rfl
  reference := fun _ _ _ h => h.congr rfl rfl rfl rfl rfl rfl
  receiver := fun _ _ _ _ h => h.congr rfl rfl rfl rfl rfl rfl
  peer := fun _ _ _ _ h => h.congr (by simp) (by simp) (by simp) (by simp) (by simp) (by simp)
  tableCounts := fun _ _ he _ _ h => h.congr he rfl rfl rfl rfl rfl
  select := fun _ hr h => h.select hr
  endEntry := fun k cause _ hr h => h.endEntry hr k cause
  entry := fun k _ _ hf _ h => h.updateEntry k hf
  agedEntries := fun _ h => h.mapEntries fun e => by
    split
    · exact ⟨rfl, rfl, rfl, rfl, rfl⟩
    · exact .rfl' e
  freeEnded := fun o s hr h => by
    refine (h.filterEntries hr fun e _ hstay hair => ?_).select hr
    simp [Entry.live, hair] at hstay
  freeTail := fun k s hr h => by
    unfold freeTail
    split
    · exact h
    · next e he =>
      split
      · next hpassed =>
        refine (h.removeEntry hr fun x hx hair => ?_).select hr
        rw [he] at hx
        cases hx
        simp [tailPassed, Entry.live, hair] at hpassed
      · exact h
  createLocal := fun c _ hr h => h.createLocal hr c
  considerClaim := fun _ _ cls areas label k _ hr ho _ hended h => h.considerClaim hr cls areas label k ho hended
  clearTable := fun s hr h => by
    have hempty : TableSound ((setEntries [] s).setSelector
        { onAir := none, guard := none, sequence := s.selector.sequence + 1, feedSelect := 0, feedEnable := false }) :=
      tableSound_empty rfl rfl rfl rfl
    exact hempty.congr (by simp [clearTable, setEntries]) (by simp [clearTable, setEntries]) (by simp [clearTable, setEntries])
      (by simp [clearTable, setEntries]) (by simp [clearTable, setEntries]) (by simp [clearTable, setEntries])
  inputs := fun _ _ h => h.congr rfl rfl rfl rfl rfl rfl
  manual := fun _ _ _ h => h.congr rfl rfl rfl rfl rfl rfl
  channel := fun _ _ _ _ _ h => h.congr rfl rfl rfl rfl rfl rfl
  channels := fun _ _ _ _ h => h.congr rfl rfl rfl rfl rfl rfl
  endCue := fun c above s hr _ h => by
    have hcount : TableSound (updateChannel c (Channel.countOff above) s) := h.congr rfl rfl rfl rfl rfl rfl
    have hchannel (f : Channel → Channel) {t : State} (ht : TableSound t) : TableSound (updateChannel c f t) :=
      ht.congr rfl rfl rfl rfl rfl rfl
    unfold endCue
    split
    · exact hchannel _ hcount
    · exact hchannel _ (hcount.endEntry hr _ _)

theorem keptByCommands_tableSound : KeptByCommands TableSound where
  pending := fun _ _ h => h.congr rfl rfl rfl rfl rfl rfl
  powerOn := fun _ => tableSound_empty rfl rfl rfl rfl
  assertReset := fun s h => by
    refine .of_body (h.body.congr rfl rfl) h.slot ?_ h.idle
    unfold feedLinesAgree
    split
    · exact ⟨rfl, rfl⟩
    · exact ⟨rfl, rfl⟩
  releaseReset := fun _ h => by
    unfold releaseReset
    split
    · exact tableSound_empty rfl rfl rfl rfl
    · exact h
  restartNow := fun _ _ h => by
    unfold restartNow
    split
    · exact tableSound_empty rfl rfl rfl rfl
    · exact h
  endLoad := fun image s _ h => by
    unfold endLoad
    split
    · next hstarting =>
      have hempty := h.idle (by rw [hstarting]; exact nofun)
      obtain ⟨hslot, hfeed, henable⟩ := h.slot_of_empty hempty
      split
      · exact tableSound_empty (by simpa [failLoad] using hempty) (by simpa [failLoad] using hslot)
          (by simpa [failLoad] using hfeed) (by simpa [failLoad] using henable)
      · exact tableSound_empty (by simpa [beginRunning, beginReception, takeImage] using hempty)
          (by simpa [beginRunning, beginReception, takeImage] using hslot)
          (by simpa [beginRunning, beginReception, takeImage] using hfeed)
          (by simpa [beginRunning, beginReception, takeImage] using henable)
    · exact h
  takeEvents := fun _ h => h.congr rfl rfl rfl rfl rfl rfl
  takeRestart := fun _ h => h.congr rfl rfl rfl rfl rfl rfl
  countSecond := fun _ h => h.congr (by simp) (by simp) (by simp) (by simp) (by simp) (by simp)
  repeatName := fun _ _ h => h.congr (by simp) (by simp) (by simp) (by simp) (by simp) (by simp)
  setName := fun _ _ _ h => h.congr (by simp) (by simp) (by simp) (by simp) (by simp) (by simp)
  countSlot := fun _ h => h.congr (by simp) (by simp) (by simp) (by simp) (by simp) (by simp)
  beginAttempt := fun _ h => h.congr (by simp) (by simp) (by simp) (by simp) (by simp) (by simp)
  endAttempt := fun _ h => h.congr rfl rfl rfl rfl rfl rfl
  nextCharacter := fun _ _ _ _ h => h.congr rfl rfl rfl rfl rfl rfl
  leaveHead := fun _ _ h => h.congr (by simp) (by simp) (by simp) (by simp) (by simp) (by simp)
  raiseAttempt := fun _ _ _ _ _ h => h.congr (by simp) (by simp) (by simp) (by simp) (by simp) (by simp)
  clearQueue := fun _ h => h.congr (by simp) (by simp) (by simp) (by simp) (by simp) (by simp)
  clearPeerCounts := fun _ h => h.congr (by simp) (by simp) (by simp) (by simp) (by simp) (by simp)
  guard := fun _ h => h.congr rfl rfl rfl rfl rfl rfl

/-- Settles O5: every act keeps the table sound, and with them every step. -/
theorem everyStepKeepsTableAndSlotSound : Obligations.EveryStepKeepsTableAndSlotSound :=
  keptByCommands_tableSound.step keptByActs_tableSound

end Sys2Proof.Machine
end
section
/-! The reset state, the starts and the reset pin (R24, R184, R186). -/

namespace Sys2Proof.Machine

/-- Settles O4: an empty part meets every invariant, and the rest are the values of `State.reset`. -/
theorem resetHoldsStartValuesAndInvariants : Obligations.ResetHoldsStartValuesAndInvariants := by
  refine ⟨⟨rfl, rfl, rfl, rfl, rfl, rfl, fun c => ?_, rfl, rfl, rfl, fun p => ?_, rfl, rfl, rfl⟩, ?_, ?_, ?_, ?_, ?_, ?_⟩
  · have hstart : State.reset.cues.channels[c] = channelAtStart := by simp [State.reset]
    rw [hstart]
    exact ⟨rfl, rfl⟩
  · have hstart : State.reset.peers[p] = peerAtStart := by simp [State.reset]
    rw [hstart]
    rfl
  · exact tableSound_empty rfl rfl rfl rfl
  · exact queueSound_empty rfl rfl
  · exact receiverSound_empty rfl rfl rfl rfl rfl
  · exact (CuesHold.of_start keptByMoves_sound rfl rfl).2
  · exact textsSound_of_start rfl rfl rfl
  · exact (rangesSound_iff _).2 ⟨restRanges_of_start rfl rfl rfl rfl rfl rfl rfl rfl rfl rfl rfl rfl rfl rfl,
      CuesHold.of_start keptByMoves_ranges rfl rfl⟩

/-- R24: the mark of a start that is not a power-on differs from the previous one. -/
theorem otherMark_ne (s : State) : otherMark s ≠ s.claims.startMark := by
  intro h
  have hlt : Config.random s.draws % 255 < 255 := Nat.mod_lt _ (by decide)
  have := congrArg BitVec.toNat h
  have := s.claims.startMark.isLt
  have hone : (1 : Byte).toNat = 1 := rfl
  simp only [otherMark, BitVec.toNat_add, BitVec.toNat_ofNat] at *
  omega

/-- Settles O11: each start is `startAll`, and the mark is drawn from the values that differ. -/
theorem startsTakeTheStartValues : Obligations.StartsTakeTheStartValues := by
  refine ⟨fun s => ⟨anyMark s, rfl⟩, fun s hheld => ⟨otherMark s, otherMark_ne s, ?_⟩,
    fun s hheld hdue => ⟨otherMark s, otherMark_ne s, ?_⟩⟩
  · show Host.Outcome.next (releaseReset s) = _
    rw [releaseReset, if_pos hheld]
    rfl
  · show unlessHeld restartNow s = _
    rw [unlessHeld_eq hheld, restartNow, if_pos hdue, startAll, hheld]
    rfl

theorem running_of_held {s : State} (h : s.loader.resetHeld = true) : s.running = false := by simp [State.running, h]

theorem atPort_eq_of_held {f : State → State} {s : State} (h : s.loader.resetHeld = true) :
    atPort f s = .next (s.setPort { s.port with output := [] }) := by
  have hclosed : s.portOpen = false := by simp [State.portOpen, h]
  simp [atPort, hclosed, portReturns]

theorem atRunningPort_eq_of_held {f : State → State} {s : State} (h : s.loader.resetHeld = true) :
    atRunningPort f s = .next (s.setPort { s.port with output := [] }) := atPort_eq_of_held h

/-- Settles O12: a held part takes no command but the three, and the port returns no byte. -/
theorem resetPinHoldsThePart : Obligations.ResetPinHoldsThePart := by
  refine ⟨fun s => ⟨rfl, fun t ht => ?_⟩, fun c s hheld hpower hassert hrelease => ?_⟩
  · cases ht
    rfl
  · cases c with
    | powerOn => exact absurd rfl hpower
    | resetPinAssert => exact absurd rfl hassert
    | resetPinRelease => exact absurd rfl hrelease
    | transactionAbandoned => exact .inr rfl
    | loadComplete _ | restartStart | cueSample _ _ _ _ _ | ageStep | lineIdle | lineBusy | strayCharacter _ _
    | badLengthCharacter _ _ | discardedAssembly _ _ | assemblyCharacter _ _ | startCharacter | claimFrame _ | releaseFrame _
    | lapseFrame _ | presenceFrame _ | nameFrame _ | frameSent | characterReadBack | collision _ _ | referenceEdge
    | referenceGap | returnComplete | cellBegin | bitBoundary => exact .inl (unlessHeld_eq_of_held hheld)
    | claimLifetimeExpiry _ _ | endingTailExpiry _ _ | localRefresh _ | releaseRepeat _ | guardTimerExpiry
    | peerDeadlineReached _ | periodicPresence | downshiftTest | nameRepeat | assemblyAbandoned | backoffSlot | backoffExpiry =>
      exact .inl (whenRunning_eq_of_not (running_of_held hheld))
    | status | events | restart | unknownCommand _ => exact .inr (atPort_eq_of_held hheld)
    | peers =>
      exact .inr (atRunningPort_eq_of_held
        (f := fun s => portReturns (Reply.accepted.code :: peersReport s) (clearPeerCounts s)) hheld)
    | cueHistory =>
      exact .inr (atRunningPort_eq_of_held
        (f := fun s => portReturns (Reply.accepted.code :: historyReport s) (mapChannels Channel.reported s)) hheld)
    | claims | setName _ | manualCueStart | manualCueStop | manualCueUnknown _ | clear =>
      exact .inr (atRunningPort_eq_of_held hheld)

end Sys2Proof.Machine
end
section
/-! Serial comparison of claim numbers (R3, R9, R14), and the end of the load (R181 to R185). -/

namespace Sys2Proof.Machine

/-! ### Claim numbers -/

theorem sub_toNat (a b : Byte) : (a - b).toNat = (a.toNat + 256 - b.toNat) % 256 := by
  rw [BitVec.toNat_sub]
  have := b.isLt
  omega

theorem newerNumber_iff {a b : Byte} : newerNumber a b = true ↔ 1 ≤ (a - b).toNat ∧ (a - b).toNat ≤ 127 := by
  simp [newerNumber]

theorem olderNumber_iff {a b : Byte} : olderNumber a b = true ↔ 129 ≤ (a - b).toNat := by simp [olderNumber]

theorem notComparable_iff {a b : Byte} : notComparable a b = true ↔ (a - b).toNat = 128 := by simp [notComparable]

theorem staleNumber_iff {n l : Byte} : staleNumber n l = true ↔ n = l ∨ olderNumber n l = true := by simp [staleNumber]

/-- The windows of the serial comparison cover the numbers, so that a number is stale just when it is neither newer nor not
comparable. -/
theorem stale_iff_not_replaces (n l : Byte) :
    staleNumber n l = true ↔ ¬ (newerNumber n l = true ∨ notComparable n l = true) := by
  have hzero : n = l ↔ (n - l).toNat = 0 := by
    rw [← BitVec.toNat_inj, sub_toNat]
    have := n.isLt
    have := l.isLt
    omega
  rw [staleNumber_iff, newerNumber_iff, olderNumber_iff, notComparable_iff, hzero]
  have := (n - l).isLt
  omega

theorem staleNumber_self (n : Byte) : staleNumber n n = true := staleNumber_iff.2 (.inl rfl)

theorem nextLastEnded_of_stale {n l : Byte} (h : staleNumber n l = true) : nextLastEnded (some l) n = some l := by
  have hnot := (stale_iff_not_replaces n l).1 h
  simp only [nextLastEnded]
  exact if_neg (by simpa using hnot)

theorem nextLastEnded_of_not_stale {n l : Byte} (h : staleNumber n l = false) : nextLastEnded (some l) n = some n := by
  have hreplaces : newerNumber n l = true ∨ notComparable n l = true := by
    by_contra hnot
    rw [(stale_iff_not_replaces n l).2 hnot] at h
    cases h
  simp only [nextLastEnded]
  exact if_pos (by simpa using hreplaces)

/-- Settles O23: the relations are windows of the difference, and the last ended number moves just when the offered number is not
stale. -/
theorem claimNumbersCompareSerially : Obligations.ClaimNumbersCompareSerially := by
  refine ⟨?_, fun held n => ?_⟩
  · intro a b d
    have hd : (a - b).toNat = d := sub_toNat a b
    have hd' : (b - a).toNat = (b.toNat + 256 - a.toNat) % 256 := sub_toNat b a
    have ha := a.isLt
    have hb := b.isLt
    have hlt : d < 256 := hd ▸ (a - b).isLt
    refine ⟨by rw [newerNumber_iff, hd], ?_, by rw [olderNumber_iff, hd]; omega, by rw [notComparable_iff, hd], ?_, ?_⟩
    · rw [← BitVec.toNat_inj]
      omega
    · rw [Bool.eq_iff_iff, newerNumber_iff, olderNumber_iff, hd, hd']
      omega
    · rw [Bool.eq_iff_iff, notComparable_iff, notComparable_iff, hd, hd']
      omega
  · refine ⟨?_, fun l _ => stale_iff_not_replaces n l, fun l hl => ?_, fun l hl hstale => hl ▸ nextLastEnded_of_stale hstale,
      fun l hl hstale => hl ▸ nextLastEnded_of_not_stale hstale⟩
    · cases held with
      | none => exact .inl rfl
      | some l =>
        cases hstale : staleNumber n l with
        | true => exact .inr ⟨l, rfl, nextLastEnded_of_stale hstale, hstale⟩
        | false => exact .inl (nextLastEnded_of_not_stale hstale)
    · cases held with
      | none =>
        cases hl
        exact staleNumber_self n
      | some m =>
        cases hstale : staleNumber n m with
        | true =>
          rw [nextLastEnded_of_stale hstale] at hl
          cases hl
          exact hstale
        | false =>
          rw [nextLastEnded_of_not_stale hstale] at hl
          cases hl
          exact staleNumber_self n

/-! ### Posting an event, and an offer to an empty queue -/

/-- R176: what a posted event makes of the port. -/
theorem postEvent_eq (kind : EventKind) (a b c : Byte) (s : State) :
    postEvent kind a b c s = s.setPort (portWith ⟨kind, s.clock.stationTime, a, b, c⟩ s.port) := by
  unfold postEvent portWith Config.eventCapacity
  split <;> rfl

theorem portWith_of_room {r : EventRecord} {p : SitePort} (h : p.events.length < 16) :
    portWith r p = { p with events := p.events ++ [r] } := if_pos h

theorem portWith_of_full {r : EventRecord} {p : SitePort} (h : ¬ p.events.length < 16) :
    portWith r p = { p with overflow := true } := if_neg h

/-- An empty queue takes the frame as its head. -/
theorem offer_of_empty {b : FrameBody} {s : State} (h : s.tx.queue = []) :
    offer b s = drawBackoff (setQueue [ownFrame s b] s) := by
  have hplaced : offerFrame (ownFrame s b) s = drawBackoff (setQueue [ownFrame s b] s) := by
    rw [offerFrame_room _ _ (by simp [h]), placeFrame, h]
    exact if_neg (by simp [insertFrame])
  cases b <;> simp only [offer, h, List.any_nil, List.find?_nil, Bool.false_eq_true, if_false] <;> exact hplaced

/-- A head that stands for its first attempt draws a backoff of 0 or 1. -/
theorem drawBackoff_head {f : Frame} {q : List Frame} {s : State} (h : s.tx.queue = f :: q) :
    ∃ d, d < 2 ^ f.attempt ∧ drawBackoff s = (s.setTx { s.tx with backoff := some d }).setDraws (s.draws + 1) := by
  refine ⟨Config.random s.draws % 2 ^ f.attempt, Nat.mod_lt _ (Nat.two_pow_pos _), ?_⟩
  unfold drawBackoff
  rw [h]

/-- A PRESENCE that is offered to an empty queue is its head. -/
theorem offerPresence_of_empty {s : State} (h : s.tx.queue = []) : ∃ d < 2, offerPresence s =
    ((s.setPresence { s.presence with presenceTimer := 0 }).setTx
      { s.tx with queue := [ownFrame s (ownPresence s)], backoff := some d }).setDraws (s.draws + 1) := by
  obtain ⟨d, hd, heq⟩ := drawBackoff_head (s := setQueue [ownFrame s (ownPresence s)]
    (s.setPresence { s.presence with presenceTimer := 0 })) (f := ownFrame s (ownPresence s)) (q := []) rfl
  refine ⟨d, hd, ?_⟩
  rw [offerPresence, offer_of_empty (s := s.setPresence { s.presence with presenceTimer := 0 }) h]
  exact heq

/-! ### The checks of the load -/

theorem endLoad_eq {image : List Byte} {s : State} (h : s.loading) : endLoad image s =
    (imageFault image).elim (beginRunning (takeImage image s)) fun fault => failLoad fault.1 fault.2 s := by
  rw [endLoad, if_pos h.1]
  cases imageFault image <;> rfl

theorem exec_loadComplete {image : Vector Byte 203} {s : State} (h : s.loading) :
    exec (.loadComplete image) s = .next (endLoad image.toList s) := unlessHeld_eq h.2

theorem not_isStation_iff (b : Byte) : (!isStation b) = true ↔ b.toNat < 1 ∨ 31 < b.toNat := by
  simp only [isStation, Bool.not_eq_true', Bool.and_eq_false_iff, decide_eq_false_iff_not, Nat.not_le]

/-- R181: the four checks in order. -/
theorem imageFault_eq (image : List Byte) : imageFault image =
    if crc16 (image.take 201) ≠ halfOf (byteAt image 201) (byteAt image 202) then some (1, 0)
    else if byteAt image 0 ≠ 0x3C then some (2, byteAt image 0)
    else if (byteAt image 1).toNat < 1 ∨ 31 < (byteAt image 1).toNat then some (3, byteAt image 1)
    else if byteAt image 2 = 0 then some (4, 0)
    else none := by
  have hstation : (!isStation (byteAt image 1)) = true ↔ _ := not_isStation_iff (byteAt image 1)
  simp only [imageFault, hstation]
  rfl

theorem failLoad_eq (cause : Nat) (value : Byte) (s : State) : failLoad cause value s =
    (s.setLoader { s.loader with runState := .configFault, faultCause := cause }).setPort
      (portWith ⟨.configFault, s.clock.stationTime, countByte cause, value, 0⟩ s.port) := by
  rw [failLoad, postEvent_eq]
  rfl

/-- An image that is not accepted fails a check. -/
theorem imageAccepted_of_fault {image : List Byte} (h : imageFault image = none) : ImageAccepted image := by
  rw [imageFault_eq] at h
  split at h
  · cases h
  · next hcrc =>
    split at h
    · cases h
    · next hmark =>
      split at h
      · cases h
      · next hstation =>
        split at h
        · cases h
        · next hserved => exact ⟨not_not.1 hcrc, not_not.1 hmark, by omega, hserved⟩

/-- The state as the service begins, behind the first PRESENCE and before STARTED. -/
def serviceBegun (image : List Byte) (s : State) : State :=
  offerPresence (beginReception ((takeImage image s).setLoader { (takeImage image s).loader with runState := .running }))

theorem beginRunning_eq (image : List Byte) (s : State) : beginRunning (takeImage image s) =
    postEvent .started (serviceBegun image s).settings.station (serviceBegun image s).claims.startMark
      (serviceBegun image s).loader.startCause.code (serviceBegun image s) := by
  simp [beginRunning, serviceBegun]

/-- The first PRESENCE is the head of the queue. -/
theorem serviceBegun_eq {image : List Byte} {s : State} (h : s.tx.queue = []) : ∃ d < 2, serviceBegun image s =
    ((((((s.setSettings (imageSettings image)).setNames (takeImage image s).names).setLoader
      { s.loader with runState := .running }).setRx { (rxWaitIdle s).rx with line := .busy }).setPresence
        { s.presence with presenceTimer := 0 }).setTx
      { s.tx with
        queue := [⟨(imageSettings image).station, s.claims.startMark,
          .presence s.presence.level (imageSettings image).fingerprint, false, 1⟩]
        backoff := some d }).setDraws (s.draws + 1) := by
  have hempty : (beginReception ((takeImage image s).setLoader
      { (takeImage image s).loader with runState := .running })).tx.queue = [] := h
  obtain ⟨d, hd, heq⟩ := offerPresence_of_empty hempty
  exact ⟨d, hd, heq⟩

/-- Settles O13: a failed check ends the load with its cause, and otherwise STARTED follows the first PRESENCE. -/
theorem loadChecksInOrder : Obligations.LoadChecksInOrder := by
  refine ⟨?_, fun image s hload hnot => ?_⟩
  · intro image s hload hroom hqueue b verdict
    refine ⟨_, exec_loadComplete hload, ?_⟩
    have hfail (cause : Nat) (value : Byte) :
        (failLoad cause value s).loader.runState = .configFault ∧ (failLoad cause value s).loader.faultCause = cause
        ∧ (failLoad cause value s).port.events =
          s.port.events ++ [⟨.configFault, s.clock.stationTime, countByte cause, value, 0⟩] := by
      rw [failLoad_eq, portWith_of_room hroom]
      exact ⟨rfl, rfl, rfl⟩
    rw [endLoad_eq hload, imageFault_eq]
    simp only [verdict, b]
    by_cases hcrc : crc16 (image.toList.take 201) ≠ halfOf (byteAt image.toList 201) (byteAt image.toList 202)
    · simp only [if_pos hcrc]
      exact hfail 1 0
    simp only [if_neg hcrc]
    by_cases hmark : byteAt image.toList 0 ≠ 0x3C
    · simp only [if_pos hmark]
      exact hfail 2 _
    simp only [if_neg hmark]
    by_cases hstation : (byteAt image.toList 1).toNat < 1 ∨ 31 < (byteAt image.toList 1).toNat
    · simp only [if_pos hstation]
      exact hfail 3 _
    simp only [if_neg hstation]
    by_cases hserved : byteAt image.toList 2 = 0
    · simp only [if_pos hserved]
      exact hfail 4 0
    simp only [if_neg hserved]
    obtain ⟨d, -, heq⟩ := serviceBegun_eq (image := image.toList) hqueue
    rw [beginRunning_eq, heq, postEvent_eq]
    exact ⟨rfl, rfl, congrArg SitePort.events (portWith_of_room hroom)⟩
  · rw [exec_loadComplete hload, endLoad_eq hload]
    cases hfault : imageFault image.toList with
    | none => exact absurd (imageAccepted_of_fault hfault) hnot
    | some fault =>
      refine ⟨fault.1, (portWith ⟨.configFault, s.clock.stationTime, countByte fault.1, fault.2, 0⟩ s.port).events,
        (portWith ⟨.configFault, s.clock.stationTime, countByte fault.1, fault.2, 0⟩ s.port).overflow, ?_⟩
      rw [Option.elim_some, failLoad_eq]
      unfold portWith
      split <;> rfl

/-- Settles O15: the service begins with the first PRESENCE at the head of the queue, and STARTED touches the port alone. -/
theorem acceptedLoadStartsService : Obligations.AcceptedLoadStartsService := by
  intro image s hload hok hqueue hlevel
  obtain ⟨d, hd, heq⟩ := serviceBegun_eq (image := image.toList) hqueue
  refine ⟨_, exec_loadComplete_of_accepted hload hok, ?_⟩
  rw [beginRunning_eq, heq, postEvent_eq, hlevel]
  have hport (r : EventRecord) : (portWith r s.port).output = s.port.output
      ∧ (portWith r s.port).restartDue = s.port.restartDue := by
    unfold portWith
    split <;> exact ⟨rfl, rfl⟩
  exact ⟨⟨d, rfl, hd⟩, rfl, rfl, rfl, rfl, rfl, rfl, rfl, rfl, rfl, rfl, rfl, rfl, rfl, rfl, rfl, (hport _).1, (hport _).2⟩

end Sys2Proof.Machine
end
section
/-! The samples of the cue channels that bring no claim and end none (R62 to R68, R73, R76). -/

namespace Sys2Proof.Machine

/-! ### What activity leaves -/

/-- `t` is `s` behind activity: the level ACTIVE with both timers 0, and beside it at most what the offered PRESENCE does to the
outgoing queue, the receiver's counters and the event queue (R134). -/
structure ActiveFrom (s t : State) : Prop where
  presence : t.presence = { level := .active, downshiftTimer := 0, presenceTimer := 0, downshiftDue := false }
  ground : sameGround s t
  claims : t.claims = s.claims
  selector : t.selector = s.selector
  cues : t.cues = s.cues
  peers : t.peers = s.peers
  cells : t.cells = s.cells

theorem activeFrom_activity (s : State) : ActiveFrom s (activity s) where
  presence := activity_spec s
  ground := by unfold sameGround; simp
  claims := by simp
  selector := by simp
  cues := by simp
  peers := by simp
  cells := by simp

theorem ActiveFrom.settings {s t : State} (h : ActiveFrom s t) : t.settings = s.settings := by
  obtain ⟨-, -, -, hsettings, -, -⟩ := h.ground
  exact hsettings

theorem ActiveFrom.clock {s t : State} (h : ActiveFrom s t) : t.clock = s.clock := by
  obtain ⟨-, -, hclock, -, -, -⟩ := h.ground
  exact hclock

theorem ActiveFrom.setCues {s t : State} (h : ActiveFrom s t) (x : CueFrontEnd) : ActiveFrom (s.setCues x) (t.setCues x) :=
  { h with cues := rfl }

theorem sameGround_trans {s t u : State} (h : sameGround s t) (h' : sameGround t u) : sameGround s u := by
  obtain ⟨hpending, hloader, hclock, hsettings, hnames, hreference⟩ := h
  obtain ⟨hpending', hloader', hclock', hsettings', hnames', hreference'⟩ := h'
  exact ⟨hpending'.trans hpending, hloader'.trans hloader, hclock'.trans hclock, hsettings'.trans hsettings,
    hnames'.trans hnames, hreference'.trans hreference⟩

theorem ActiveFrom.trans {s t u : State} (h : ActiveFrom s t) (h' : ActiveFrom t u) : ActiveFrom s u where
  presence := h'.presence
  ground := sameGround_trans h.ground h'.ground
  claims := h'.claims.trans h.claims
  selector := h'.selector.trans h.selector
  cues := h'.cues.trans h.cues
  peers := h'.peers.trans h.peers
  cells := h'.cells.trans h.cells

/-! ### One plain sample of an enabled channel -/

theorem satInc_eq_min (top n : Nat) : satInc top n = min (n + 1) top := by
  unfold satInc
  split <;> omega

theorem aboveLow_iff (src : SourceConfig) (v : Byte) : src.aboveLow v = true ↔ src.lowT.toNat < netLevel src v :=
  decide_eq_true_iff

theorem high_iff (src : SourceConfig) (v : Byte) : src.high v = true ↔ src.highT.toNat < netLevel src v :=
  decide_eq_true_iff

theorem aboveLow_eq_false_iff (src : SourceConfig) (v : Byte) : src.aboveLow v = false ↔ ¬ src.lowT.toNat < netLevel src v := by
  rw [← aboveLow_iff, Bool.not_eq_true]

theorem updateChannel_eq (c : Fin 4) (f : Channel → Channel) (s : State) :
    updateChannel c f s = withChannel c (f s.cues.channels[c]) s := rfl

theorem withChannel_self (c : Fin 4) (s : State) : withChannel c s.cues.channels[c] s = s := by
  have hset : s.cues.channels.set c s.cues.channels[c] = s.cues.channels := by simp
  unfold withChannel
  rw [hset]
  rfl

@[simp] theorem withChannel_channel (c : Fin 4) (ch : Channel) (s : State) : (withChannel c ch s).cues.channels[c] = ch := by
  simp [withChannel]

theorem withChannel_channel_ne {c d : Fin 4} (h : d ≠ c) (ch : Channel) (s : State) :
    (withChannel c ch s).cues.channels[d] = s.cues.channels[d] := by
  have hne : ¬ c.val = d.val := fun hval => h (Fin.ext hval.symm)
  simp [withChannel, hne]

@[simp] theorem withChannel_withChannel (c : Fin 4) (ch ch' : Channel) (s : State) :
    withChannel c ch' (withChannel c ch s) = withChannel c ch' s := by
  simp [withChannel]

theorem startRun_eq (src : SourceConfig) (v : Byte) (now : Time) {ch : Channel} (h : ch.state = .idle) :
    ch.startRun now (src.high v) =
      { ch with state := .run, runLength := runAfter ch, highCount := highAfter src v ch, runStart := some now } := by
  simp only [Channel.startRun, runAfter, highAfter, h, if_true, high_iff]
  rfl

theorem countRun_eq (src : SourceConfig) (v : Byte) {ch : Channel} (h : ch.state = .run) :
    ch.countRun (src.high v) = { ch with state := .run, runLength := runAfter ch, highCount := highAfter src v ch } := by
  simp only [Channel.countRun, runAfter, highAfter, h, satInc_eq_min, high_iff]
  rfl

/-- A run that is not long or not high enough is not validated. -/
theorem not_validated {src : SourceConfig} {ch : Channel} (h : ch.runLength < src.nLo ∨ ch.highCount < src.nHi) :
    src.validated ch = false := by
  simp only [SourceConfig.validated, Bool.and_eq_false_iff, decide_eq_false_iff_not]
  omega

theorem validateRun_of_not {c : Fin 4} {s : State} (h : s.settings.sources[c.castSucc].validated s.cues.channels[c] = false) :
    validateRun c s = s := by
  rw [validateRun, h]
  rfl

/-- R66: a sample above low in IDLE begins a run, as activity; the validation test follows. -/
theorem sampleEnabled_idle {c : Fin 4} {v : Byte} {s : State} (hs : s.cues.channels[c].state = .idle)
    (hv : s.settings.sources[c.castSucc].lowT.toNat < netLevel s.settings.sources[c.castSucc] v) :
    sampleEnabled c v s = validateRun c (activity (withChannel c
      { s.cues.channels[c] with
        state := .run, runLength := runAfter s.cues.channels[c],
        highCount := highAfter s.settings.sources[c.castSucc] v s.cues.channels[c],
        runStart := some s.clock.stationTime } s)) := by
  unfold sampleEnabled
  simp only [hs, (aboveLow_iff _ v).2 hv, if_true]
  rw [updateChannel_eq, startRun_eq _ _ _ hs]

/-- R67: a sample above low in RUN counts; the validation test follows. -/
theorem sampleEnabled_run {c : Fin 4} {v : Byte} {s : State} (hs : s.cues.channels[c].state = .run)
    (hv : s.settings.sources[c.castSucc].lowT.toNat < netLevel s.settings.sources[c.castSucc] v) :
    sampleEnabled c v s = validateRun c (withChannel c
      { s.cues.channels[c] with
        state := .run, runLength := runAfter s.cues.channels[c],
        highCount := highAfter s.settings.sources[c.castSucc] v s.cues.channels[c] } s) := by
  unfold sampleEnabled
  simp only [hs, (aboveLow_iff _ v).2 hv, if_true]
  rw [updateChannel_eq, countRun_eq _ _ hs]

theorem sampleEnabled_idle_low {c : Fin 4} {v : Byte} {s : State} (hs : s.cues.channels[c].state = .idle)
    (hv : ¬ s.settings.sources[c.castSucc].lowT.toNat < netLevel s.settings.sources[c.castSucc] v) :
    sampleEnabled c v s = s := by
  unfold sampleEnabled
  simp only [hs, (aboveLow_eq_false_iff _ v).2 hv]
  rfl

theorem sampleEnabled_run_low {c : Fin 4} {v : Byte} {s : State} (hs : s.cues.channels[c].state = .run)
    (hv : ¬ s.settings.sources[c.castSucc].lowT.toNat < netLevel s.settings.sources[c.castSucc] v) :
    sampleEnabled c v s = withChannel c s.cues.channels[c].toIdle s := by
  unfold sampleEnabled
  simp only [hs, (aboveLow_eq_false_iff _ v).2 hv]
  rfl

/-- R73: the off count of an ACTIVE channel, and the end of the cue at Noff. -/
theorem sampleEnabled_active {c : Fin 4} {v : Byte} {s : State} (hs : s.cues.channels[c].state = .active) :
    sampleEnabled c v s =
      if s.settings.sources[c.castSucc].nOff ≤
          (s.cues.channels[c].countOff (s.settings.sources[c.castSucc].aboveLow v)).offCount then
        endCue c (withChannel c (s.cues.channels[c].countOff (s.settings.sources[c.castSucc].aboveLow v)) s)
      else withChannel c (s.cues.channels[c].countOff (s.settings.sources[c.castSucc].aboveLow v)) s := by
  unfold sampleEnabled
  simp only [hs, updateChannel_eq, withChannel_channel]

/-- R76: the off count of a BLOCKED channel, and its return to IDLE at Noff. -/
theorem sampleEnabled_blocked {c : Fin 4} {v : Byte} {s : State} (hs : s.cues.channels[c].state = .blocked) :
    sampleEnabled c v s =
      if s.settings.sources[c.castSucc].nOff ≤
          (s.cues.channels[c].countOff (s.settings.sources[c.castSucc].aboveLow v)).offCount then
        withChannel c s.cues.channels[c].toIdle s
      else withChannel c (s.cues.channels[c].countOff (s.settings.sources[c.castSucc].aboveLow v)) s := by
  unfold sampleEnabled
  simp only [hs, updateChannel_eq, withChannel_channel, withChannel_withChannel]
  rfl

theorem countOff_above (ch : Channel) : ch.countOff true = { ch with offCount := 0 } := rfl

theorem countOff_below (ch : Channel) : ch.countOff false = { ch with offCount := ch.offCount + 1 } := rfl

theorem Channel.state_cases (ch : Channel) :
    ch.state = .idle ∨ ch.state = .run ∨ ch.state = .active ∨ ch.state = .blocked := by
  cases ch.state <;> simp

/-- A sample that neither validates a run nor ends a cue moves its channel alone, and is activity where the channel leaves IDLE. -/
theorem sampleEnabled_plain {c : Fin 4} {v : Byte} {s : State}
    (h : PlainSample s.settings.sources[c.castSucc] v s.cues.channels[c]) :
    sampleEnabled c v s =
      if leavesIdle s.settings.sources[c.castSucc] v s.cues.channels[c] then
        activity (withChannel c (sampledPlain s.clock.stationTime s.settings.sources[c.castSucc] v s.cues.channels[c]) s)
      else withChannel c (sampledPlain s.clock.stationTime s.settings.sources[c.castSucc] v s.cues.channels[c]) s := by
  unfold PlainSample at h
  have hleaves (hs : s.cues.channels[c].state ≠ .idle) :
      ¬ leavesIdle s.settings.sources[c.castSucc] v s.cues.channels[c] := fun hl => hs hl.1
  by_cases hv : s.settings.sources[c.castSucc].lowT.toNat < netLevel s.settings.sources[c.castSucc] v
  · have hi := (aboveLow_iff _ v).2 hv
    rcases s.cues.channels[c].state_cases with hs | hs | hs | hs
    · simp only [hs] at h
      rw [if_pos ⟨hs, hv⟩, sampleEnabled_idle hs hv, validateRun_of_not]
      · simp only [sampledPlain, if_pos hv, hs]
      · rw [activity_cues, withChannel_channel]
        exact not_validated (by simpa [withChannel] using h.2.2 hv)
    · simp only [hs] at h
      rw [if_neg (hleaves (by rw [hs]; decide)), sampleEnabled_run hs hv, validateRun_of_not]
      · simp only [sampledPlain, if_pos hv, hs]
      · rw [withChannel_channel]
        exact not_validated (by simpa [withChannel] using h.2.2 hv)
    · simp only [hs] at h
      rw [if_neg (hleaves (by rw [hs]; decide)), sampleEnabled_active hs, hi, countOff_above, if_neg (Nat.not_le.2 h.1)]
      simp only [sampledPlain, if_pos hv, hs]
    · simp only [hs] at h
      rw [if_neg (hleaves (by rw [hs]; decide)), sampleEnabled_blocked hs, hi, countOff_above, if_neg (Nat.not_le.2 h)]
      simp only [sampledPlain, if_pos hv, hs]
  · have hi := (aboveLow_eq_false_iff _ v).2 hv
    rw [if_neg (fun hl => hv hl.2)]
    rcases s.cues.channels[c].state_cases with hs | hs | hs | hs
    · rw [sampleEnabled_idle_low hs hv]
      simp only [sampledPlain, if_neg hv, hs, withChannel_self]
    · rw [sampleEnabled_run_low hs hv]
      simp only [sampledPlain, if_neg hv, hs]
      rfl
    · simp only [hs] at h
      rw [sampleEnabled_active hs, hi, countOff_below, if_neg (Nat.not_le.2 (h.2 (Nat.not_lt.1 hv)))]
      simp only [sampledPlain, if_neg hv, hs]
    · rw [sampleEnabled_blocked hs, hi, countOff_below]
      simp only [sampledPlain, if_neg hv, hs]
      split <;> rfl

/-! ### The four samples -/

theorem channelOrder_nodup : ∀ order : Fin 24, (channelOrder order).Nodup := by decide

theorem mem_channelOrder : ∀ (order : Fin 24) (c : Fin 4), c ∈ channelOrder order := by decide

/-- A CUE_SAMPLE takes the four samples in its order. -/
theorem exec_cueSample {v0 v1 v2 v3 : Byte} {order : Fin 24} {s : State} (hr : s.running = true) (hdue : s.clock.sampleDue = true) :
    exec (.cueSample v0 v1 v2 v3 order) s = .next (sampleAll #v[v0, v1, v2, v3] order (samplesTaken v0 v1 v2 v3 s)) := by
  show unlessHeld (takeSamples #v[v0, v1, v2, v3] order) s = _
  rw [unlessHeld_eq (free_of_running hr)]
  have hdue' : ((s.setCues { s.cues with inputs := #v[v0, v1, v2, v3] }).running
      && (s.setCues { s.cues with inputs := #v[v0, v1, v2, v3] }).clock.sampleDue) = true :=
    Bool.and_eq_true_iff.2 ⟨hr, hdue⟩
  rw [takeSamples]
  dsimp only
  rw [if_pos hdue']
  rfl

theorem sampleChannel_disabled {c : Fin 4} {v : Byte} {s : State} (h : s.settings.sources[c.castSucc].areas = 0) :
    sampleChannel c v s = s := if_pos h

theorem sampleChannel_enabled {c : Fin 4} {v : Byte} {s : State} (h : s.settings.sources[c.castSucc].areas ≠ 0) :
    sampleChannel c v s = sampleEnabled c v s := if_neg h

theorem sampleChannel_settings (c : Fin 4) (v : Byte) (s : State) : (sampleChannel c v s).settings = s.settings := by simp

/-- Samples of disabled channels are not examined. -/
theorem foldl_sampleChannel_disabled {values : Vector Byte 4} {l : List (Fin 4)} {s : State}
    (h : ∀ d ∈ l, s.settings.sources[d.castSucc].areas = 0) :
    l.foldl (fun s c => sampleChannel c values[c] s) s = s := by
  induction l with
  | nil => rfl
  | cons d l ih =>
    rw [List.foldl_cons, sampleChannel_disabled (h d List.mem_cons_self)]
    exact ih fun e he => h e (List.mem_cons_of_mem d he)

/-- Where one channel alone is enabled, its sample is the only one examined. -/
theorem foldl_sampleChannel_only {values : Vector Byte 4} {l : List (Fin 4)} {c : Fin 4} {s : State} (hl : l.Nodup)
    (hc : c ∈ l) (h : ∀ d : Fin 4, d ≠ c → s.settings.sources[d.castSucc].areas = 0) :
    l.foldl (fun s c => sampleChannel c values[c] s) s = sampleChannel c values[c] s := by
  obtain ⟨a, b, rfl⟩ := List.append_of_mem hc
  have hca : c ∉ a := fun hmem => List.disjoint_of_nodup_append hl hmem List.mem_cons_self
  have hcb : c ∉ b := (List.nodup_cons.1 hl.of_append_right).1
  rw [List.foldl_append, foldl_sampleChannel_disabled fun d hd => h d fun heq => hca (heq ▸ hd), List.foldl_cons]
  exact foldl_sampleChannel_disabled fun d hd => by
    rw [sampleChannel_settings]
    exact h d fun heq => hcb (heq ▸ hd)

/-- Where channel `c` alone is enabled, a CUE_SAMPLE is its sample. -/
theorem exec_cueSample_only {v0 v1 v2 v3 : Byte} {order : Fin 24} {c : Fin 4} {s : State} (h : SamplesOnly s c) :
    exec (.cueSample v0 v1 v2 v3 order) s =
      .next (sampleEnabled c (sampleOf v0 v1 v2 v3 c) (samplesTaken v0 v1 v2 v3 s)) := by
  have honly : sampleAll #v[v0, v1, v2, v3] order (samplesTaken v0 v1 v2 v3 s) =
      sampleChannel c (sampleOf v0 v1 v2 v3 c) (samplesTaken v0 v1 v2 v3 s) :=
    foldl_sampleChannel_only (channelOrder_nodup order) (mem_channelOrder order c) h.others
  rw [exec_cueSample h.running h.due, honly]
  exact congrArg _ (sampleChannel_enabled h.enabled)

theorem samplesTaken_channel (v0 v1 v2 v3 : Byte) (s : State) (c : Fin 4) :
    (samplesTaken v0 v1 v2 v3 s).cues.channels[c] = s.cues.channels[c] := rfl

/-! ### Samples of several channels -/

/-- Channel `c` behind a plain sample of it, where it is enabled (R62). -/
def sampledOne (v : Byte) (c : Fin 4) (s : State) : Channel :=
  if s.settings.sources[c.castSucc].areas ≠ 0 then
    sampledPlain s.clock.stationTime s.settings.sources[c.castSucc] v s.cues.channels[c]
  else s.cues.channels[c]

/-- Channel `c` is enabled and leaves IDLE. -/
def oneLeaves (v : Byte) (c : Fin 4) (s : State) : Prop :=
  s.settings.sources[c.castSucc].areas ≠ 0 ∧ leavesIdle s.settings.sources[c.castSucc] v s.cues.channels[c]

/-- A plain sample moves its channel alone, and is activity where the channel leaves IDLE. -/
theorem sampleChannel_plain {c : Fin 4} {v : Byte} {s : State}
    (h : s.settings.sources[c.castSucc].areas ≠ 0 → PlainSample s.settings.sources[c.castSucc] v s.cues.channels[c]) :
    (¬ oneLeaves v c s ∧ sampleChannel c v s = withChannel c (sampledOne v c s) s)
    ∨ (oneLeaves v c s ∧ ActiveFrom (withChannel c (sampledOne v c s) s) (sampleChannel c v s)) := by
  by_cases he : s.settings.sources[c.castSucc].areas ≠ 0
  · rw [sampleChannel_enabled he, sampleEnabled_plain (h he), sampledOne, if_pos he]
    by_cases hl : leavesIdle s.settings.sources[c.castSucc] v s.cues.channels[c]
    · rw [if_pos hl]
      exact .inr ⟨⟨he, hl⟩, activeFrom_activity _⟩
    · rw [if_neg hl]
      exact .inl ⟨fun h => hl h.2, rfl⟩
  · rw [sampleChannel_disabled (not_not.1 he), sampledOne, if_neg he, withChannel_self]
    exact .inl ⟨fun h => he h.1, rfl⟩

/-- The channels behind one plain sample of each channel of `l`. -/
def sampledChannels (v : Fin 4 → Byte) (l : List (Fin 4)) (s : State) : Vector Channel 4 :=
  Vector.ofFn fun c : Fin 4 => if c ∈ l then sampledOne (v c) c s else s.cues.channels[c]

/-- The state with its channels replaced. -/
def withChannels (chs : Vector Channel 4) (s : State) : State := s.setCues { s.cues with channels := chs }

theorem sampledChannels_nil (v : Fin 4 → Byte) (s : State) : sampledChannels v [] s = s.cues.channels := by
  ext i hi
  simp [sampledChannels]

theorem sampledOne_congr {s t : State} {v : Byte} {c : Fin 4} (hsettings : t.settings = s.settings) (hclock : t.clock = s.clock)
    (hchannel : t.cues.channels[c] = s.cues.channels[c]) : sampledOne v c t = sampledOne v c s := by
  rw [sampledOne, sampledOne, hsettings, hclock, hchannel]

theorem oneLeaves_congr {s t : State} {v : Byte} {c : Fin 4} (hsettings : t.settings = s.settings)
    (hchannel : t.cues.channels[c] = s.cues.channels[c]) : oneLeaves v c t ↔ oneLeaves v c s := by
  rw [oneLeaves, oneLeaves, hsettings, hchannel]

/-- The rest of the channels behind the sample of channel `c`, which moves nothing else that they look at. -/
theorem sampledChannels_cons {v : Fin 4 → Byte} {c : Fin 4} {l : List (Fin 4)} (hc : c ∉ l) {s t : State}
    (hsettings : t.settings = s.settings) (hclock : t.clock = s.clock) (hself : t.cues.channels[c] = sampledOne (v c) c s)
    (hothers : ∀ d : Fin 4, d ≠ c → t.cues.channels[d] = s.cues.channels[d]) :
    sampledChannels v l t = sampledChannels v (c :: l) s := by
  unfold sampledChannels
  congr 1
  funext d
  by_cases hd : d = c
  · subst hd
    rw [if_neg hc, if_pos List.mem_cons_self, hself]
  · simp only [List.mem_cons, hd, false_or, sampledOne_congr hsettings hclock (hothers d hd), hothers d hd]

/-- One plain sample of each channel of `l`, whatever the order. -/
theorem foldl_sampleChannel_plain {values : Vector Byte 4} {l : List (Fin 4)} {s : State} (hl : l.Nodup)
    (h : ∀ c ∈ l, s.settings.sources[c.castSucc].areas ≠ 0 →
      PlainSample s.settings.sources[c.castSucc] values[c] s.cues.channels[c]) :
    ((¬ ∃ c ∈ l, oneLeaves values[c] c s) ∧ l.foldl (fun s c => sampleChannel c values[c] s) s =
        withChannels (sampledChannels (fun c => values[c]) l s) s)
    ∨ ((∃ c ∈ l, oneLeaves values[c] c s) ∧ ActiveFrom (withChannels (sampledChannels (fun c => values[c]) l s) s)
        (l.foldl (fun s c => sampleChannel c values[c] s) s)) := by
  induction l generalizing s with
  | nil => exact .inl ⟨fun ⟨c, hc, _⟩ => absurd hc List.not_mem_nil, by rw [sampledChannels_nil]; rfl⟩
  | cons c l ih =>
    obtain ⟨hc, hl⟩ := List.nodup_cons.1 hl
    rw [List.foldl_cons]
    have hone := sampleChannel_plain (h c List.mem_cons_self)
    generalize sampleChannel c values[c] s = t at hone
    have hsettings : t.settings = s.settings := by
      rcases hone with ⟨_, heq⟩ | ⟨_, hactive⟩
      · rw [heq]
        rfl
      · exact hactive.settings
    have hclock : t.clock = s.clock := by
      rcases hone with ⟨_, heq⟩ | ⟨_, hactive⟩
      · rw [heq]
        rfl
      · exact hactive.clock
    have hcues : t.cues = (withChannel c (sampledOne values[c] c s) s).cues := by
      rcases hone with ⟨_, heq⟩ | ⟨_, hactive⟩
      · rw [heq]
      · exact hactive.cues
    have hothers (d : Fin 4) (hd : d ≠ c) : t.cues.channels[d] = s.cues.channels[d] := by
      rw [hcues, withChannel_channel_ne hd]
    have hself : t.cues.channels[c] = sampledOne values[c] c s := by rw [hcues, withChannel_channel]
    have hrest := ih (s := t) hl fun d hd => by
      have hne : d ≠ c := fun heq => hc (heq ▸ hd)
      rw [hsettings, hothers d hne]
      exact h d (List.mem_cons_of_mem c hd)
    rw [sampledChannels_cons (v := fun c => values[c]) hc hsettings hclock hself hothers] at hrest
    have hleaves : (∃ d ∈ l, oneLeaves values[d] d t) ↔ ∃ d ∈ l, oneLeaves values[d] d s := by
      refine exists_congr fun d => and_congr_right fun hd => oneLeaves_congr hsettings (hothers d fun heq => hc (heq ▸ hd))
    have hwith (chs : Vector Channel 4) : (withChannel c (sampledOne values[c] c s) s).setCues { t.cues with channels := chs } =
        withChannels chs s := by
      rw [hcues]
      rfl
    rw [hleaves] at hrest
    rw [List.exists_mem_cons_iff]
    rcases hone with ⟨hnot, heq⟩ | ⟨hleave, hactive⟩
    · have hsame (chs : Vector Channel 4) : withChannels chs t = withChannels chs s := by rw [← hwith, heq]; rfl
      rw [hsame] at hrest
      simpa only [hnot, false_or] using hrest
    · refine .inr ⟨.inl hleave, ?_⟩
      have hmoved := hactive.setCues { t.cues with channels := sampledChannels (fun c => values[c]) (c :: l) s }
      rw [hwith] at hmoved
      rcases hrest with ⟨_, heq⟩ | ⟨_, hrest⟩
      · rw [heq]
        exact hmoved
      · exact hmoved.trans hrest

/-! ### The statements -/

/-- Settles O16: nothing is examined of a disabled channel, and an IDLE one begins a run just when the sample is above low. -/
theorem samplesOfIdleChannels : Obligations.SamplesOfIdleChannels := by
  refine ⟨fun v0 v1 v2 v3 order s hr hdue hdisabled => ?_, ?_⟩
  · rw [exec_cueSample hr hdue, sampleAll]
    exact congrArg _ (foldl_sampleChannel_disabled fun d _ => hdisabled d)
  · intro v0 v1 v2 v3 order c s h src ch net high hs
    rw [exec_cueSample_only h]
    refine ⟨fun hlow => congrArg _ (sampleEnabled_idle_low hs (Nat.not_lt.2 hlow)), fun habove hnot => ?_⟩
    have hrun : runAfter ch = 1 := if_pos hs
    have hhigh : highAfter src (sampleOf v0 v1 v2 v3 c) ch = high := by
      simp only [highAfter, hs, if_true]
      rfl
    have hstart : sampleEnabled c (sampleOf v0 v1 v2 v3 c) (samplesTaken v0 v1 v2 v3 s) =
        validateRun c (activity (withChannel c { ch with
          state := .run, runLength := runAfter ch, highCount := highAfter src (sampleOf v0 v1 v2 v3 c) ch,
          runStart := some s.clock.stationTime } (samplesTaken v0 v1 v2 v3 s))) := sampleEnabled_idle hs habove
    rw [hrun, hhigh, validateRun_of_not] at hstart
    · have hactive := activeFrom_activity (withChannel c { ch with
        state := .run, runLength := 1, highCount := high, runStart := some s.clock.stationTime } (samplesTaken v0 v1 v2 v3 s))
      exact ⟨_, congrArg _ hstart, hactive.cues, hactive.presence, hactive.ground, hactive.claims, hactive.selector,
        hactive.cells, hactive.peers⟩
    · rw [activity_cues, withChannel_channel, (activeFrom_activity _).settings]
      exact not_validated hnot

/-- Settles O17: an enabled channel's plain sample moves it alone, and the samples of several channels move each its own. -/
theorem samplesOfARun : Obligations.SamplesOfARun := by
  refine ⟨?_, ?_, ?_⟩
  · intro v0 v1 v2 v3 order c s h src ch hs hlow
    rw [exec_cueSample_only h]
    exact congrArg _ (sampleEnabled_run_low hs (Nat.not_lt.2 hlow))
  · intro v0 v1 v2 v3 order c s h src ch net run high hs _ _ habove hnot
    have hrun : runAfter ch = run := if_neg (by rw [hs]; decide)
    have hhigh : highAfter src (sampleOf v0 v1 v2 v3 c) ch = high := by
      simp only [highAfter, hs]
      rfl
    have hcount : sampleEnabled c (sampleOf v0 v1 v2 v3 c) (samplesTaken v0 v1 v2 v3 s) =
        validateRun c (withChannel c { ch with
          state := .run, runLength := runAfter ch, highCount := highAfter src (sampleOf v0 v1 v2 v3 c) ch }
          (samplesTaken v0 v1 v2 v3 s)) := sampleEnabled_run hs habove
    have hstate : ({ ch with state := .run, runLength := run, highCount := high } : Channel) =
        { ch with runLength := run, highCount := high } := by rw [← hs]
    rw [hrun, hhigh, hstate, validateRun_of_not] at hcount
    · rw [exec_cueSample_only h]
      exact congrArg _ hcount
    · rw [withChannel_channel]
      exact not_validated hnot
  · intro v0 v1 v2 v3 order s hr hdue src v hplain leaves moved
    rw [exec_cueSample hr hdue]
    have hmoved : withChannels (sampledChannels (fun c => #v[v0, v1, v2, v3][c]) (channelOrder order)
        (samplesTaken v0 v1 v2 v3 s)) (samplesTaken v0 v1 v2 v3 s) = moved := by
      have hchannels : sampledChannels (fun c => #v[v0, v1, v2, v3][c]) (channelOrder order) (samplesTaken v0 v1 v2 v3 s) =
          Vector.ofFn fun c : Fin 4 =>
            if (src c).areas = 0 then s.cues.channels[c]
            else sampledPlain s.clock.stationTime (src c) (v c) s.cues.channels[c] := by
        unfold sampledChannels
        congr 1
        funext c
        rw [if_pos (mem_channelOrder order c), sampledOne, ite_not]
        rfl
      rw [hchannels]
      rfl
    have hleaves : (∃ c ∈ channelOrder order, oneLeaves #v[v0, v1, v2, v3][c] c (samplesTaken v0 v1 v2 v3 s)) ↔ leaves :=
      exists_congr fun c => and_iff_right (mem_channelOrder order c)
    have hall := foldl_sampleChannel_plain (values := #v[v0, v1, v2, v3]) (channelOrder_nodup order)
      (s := samplesTaken v0 v1 v2 v3 s) fun c _ => hplain c
    rw [hmoved, hleaves] at hall
    refine ⟨fun hnot => ?_, fun hleave => ?_⟩
    · exact congrArg _ (hall.resolve_right fun h => hnot h.1).2
    · have hactive := (hall.resolve_left fun h => h.1 hleave).2
      exact ⟨_, rfl, hactive.cues, hactive.presence, hactive.ground, hactive.claims, hactive.selector, hactive.cells,
        hactive.peers⟩

end Sys2Proof.Machine
end
section
/-! What an offer, activity and the slot do to the outgoing queue and to the event queue (R111 to R114, R134, R176). -/

namespace Sys2Proof.Machine

/-- The frames of a queue but its PRESENCE. -/
def otherFrames (q : List Frame) : List Frame := q.filter fun f => !f.isPresence

theorem mem_otherFrames {q : List Frame} {f : Frame} : f ∈ otherFrames q ↔ f ∈ q ∧ f.isPresence = false := by
  simp [otherFrames]

/-! ### An offered PRESENCE -/

theorem rank_le_three (b : FrameBody) : b.rank ≤ 3 := by cases b <;> simp [FrameBody.rank]

theorem isPresence_iff {f : Frame} : f.isPresence = true ↔ ∃ level fp, f.body = .presence level fp := by
  unfold Frame.isPresence
  split
  · next level fp h => exact iff_of_true rfl ⟨level, fp, h⟩
  · next h => exact iff_of_false Bool.false_ne_true fun ⟨level, fp, hb⟩ => h level fp hb

/-- Frames that keep their kind where they are not a PRESENCE keep the rest of the queue. -/
theorem otherFrames_insertFrame {f : Frame} (hf : f.isPresence = true) (q : List Frame) :
    otherFrames (insertFrame f q) = otherFrames q := by
  rw [insertFrame_eq, otherFrames, List.filter_append, List.filter_cons_of_neg (by simp [hf]), ← List.filter_append,
    List.takeWhile_append_dropWhile]
  rfl

theorem otherFrames_map {q : List Frame} {g : Frame → Frame} (hg : ∀ f, (g f).isPresence = f.isPresence)
    (hother : ∀ f, f.isPresence = false → g f = f) : otherFrames (q.map g) = otherFrames q := by
  induction q with
  | nil => rfl
  | cons f q ih =>
    unfold otherFrames at ih ⊢
    rw [List.map_cons, List.filter_cons, List.filter_cons, hg, ih]
    cases hf : f.isPresence with
    | true => rfl
    | false => simp [hother f hf]

theorem frameDropped_tx (b : FrameBody) (x y : Byte) (s : State) : (frameDropped b x y s).tx = s.tx := by simp

/-- A PRESENCE is of the lowest rank, so that none is shed for it. -/
theorem offerFrame_presence {f : Frame} (hf : f.isPresence = true) (s : State) :
    otherFrames (offerFrame f s).tx.queue = otherFrames s.tx.queue := by
  obtain ⟨level, fp, hbody⟩ := isPresence_iff.1 hf
  unfold offerFrame
  split
  · rw [(placeFrame_spec f s).1, otherFrames_insertFrame hf]
  · dsimp only
    have hlow : lowestRank s.tx.queue ≤ f.body.rank := by
      rw [hbody]
      exact lowestRank_le fun g _ _ => rank_le_three g.body
    rw [if_neg (Nat.not_lt.2 hlow), frameDropped_tx]

theorem offer_presence_others {b : FrameBody} {level : QuietLevel} {fp : Half} (hb : b = .presence level fp) (s : State) :
    otherFrames (offer b s).tx.queue = otherFrames s.tx.queue := by
  subst hb
  unfold offer
  split
  · cases ‹FrameBody.presence level fp = _›
  · next held =>
    split
    · exact offerFrame_presence rfl s
    · split
      · rfl
      · refine otherFrames_map (fun f => ?_) (fun f hf => ?_)
        · split
          · next hf => exact hf.symm ▸ rfl
          · rfl
        · rw [hf]
          rfl
  · cases ‹FrameBody.presence level fp = _›
  · cases ‹FrameBody.presence level fp = _›
  · cases ‹FrameBody.presence level fp = _›

theorem offerPresence_others (s : State) : otherFrames (offerPresence s).tx.queue = otherFrames s.tx.queue :=
  offer_presence_others rfl _

theorem activity_others (s : State) : otherFrames (activity s).tx.queue = otherFrames s.tx.queue := offerPresence_others _

/-! ### The other frames at the slot -/

theorem onAirChange_others (old : Byte) (new : Option Entry) (s : State) :
    otherFrames (onAirChange old new s).tx.queue = otherFrames s.tx.queue := by
  unfold onAirChange
  dsimp only
  rw [activity_others]
  split <;> simp

theorem fillSlot_others (old : Byte) (changed : Bool) (s : State) :
    otherFrames (fillSlot old changed s).tx.queue = otherFrames s.tx.queue := by
  unfold fillSlot
  split
  · rw [onAirChange_others]
    rfl
  · split
    · exact onAirChange_others _ _ _
    · rfl

theorem select_others (s : State) : otherFrames (select s).tx.queue = otherFrames s.tx.queue := by
  rcases select_spec s with heq | ⟨x, _, _, heq⟩ | ⟨k, x, y, _, _, _, _, _, heq⟩ <;> rw [heq]
  · rw [onAirChange_others]
    rfl
  · rw [onAirChange_others]
    rfl

theorem refillSlot_others (e : Entry) (s : State) : otherFrames (refillSlot e s).tx.queue = otherFrames s.tx.queue := by
  unfold refillSlot
  split
  · exact fillSlot_others _ _ _
  · exact select_others s

/-! ### The presence level at the slot -/

/-- The level ACTIVE with both timers 0 (R134). -/
def presenceActive : Presence := { level := .active, downshiftTimer := 0, presenceTimer := 0, downshiftDue := false }

theorem select_presence {s : State} (h : s.presence = presenceActive) : (select s).presence = presenceActive := by
  rcases select_spec s with heq | ⟨x, _, _, heq⟩ | ⟨k, x, y, _, _, _, _, _, heq⟩ <;> rw [heq]
  · exact h
  · exact (onAirChange_spec _ _ _).2.2.2
  · exact (onAirChange_spec _ _ _).2.2.2

theorem fillSlot_presence (old : Byte) {changed : Bool} {s : State} (h : s.presence = presenceActive) :
    (fillSlot old changed s).presence = presenceActive := by
  unfold fillSlot
  split
  · exact (onAirChange_spec _ _ _).2.2.2
  · split
    · exact (onAirChange_spec _ _ _).2.2.2
    · exact h

theorem refillSlot_presence (e : Entry) {s : State} (h : s.presence = presenceActive) :
    (refillSlot e s).presence = presenceActive := by
  unfold refillSlot
  split
  · exact fillSlot_presence _ h
  · exact select_presence h

/-- The ending of a live entry is activity. -/
theorem endEntry_presence {k : Byte × Byte} {cause : EndCause} {s : State} {e : Entry} (he : s.entry k = some e)
    (hlive : e.state ≠ .ending) : (endEntry k cause s).presence = presenceActive := by
  rw [endEntry_of_live he (live_iff.2 hlive)]
  exact refillSlot_presence e (activity_spec _)

/-! ### The frames of an ending -/

/-- A RELEASE, a LAPSE or a NAME is not coalesced with a frame that is held. -/
theorem offer_release (n : Byte) (i : Nat) (s : State) : offer (.release n i) s = offerFrame (ownFrame s (.release n i)) s := rfl

theorem cueNotice_tx (source : Option (Fin 5)) (cause : EndCause) (s : State) : (cueNotice source cause s).tx = s.tx := by simp

theorem tellEnding_tx (e : Entry) (cause : EndCause) (s : State) :
    (tellEnding e cause s).tx = if e.isLocal then (offer (.release e.number 0) s).tx else s.tx := by
  unfold tellEnding
  split
  · exact cueNotice_tx _ _ _
  · split <;> simp

/-- Beside the PRESENCE, an ending queues the RELEASE of a local claim and nothing else (R22). -/
theorem endEntry_others_frames {k : Byte × Byte} {cause : EndCause} {s : State} {e : Entry} (he : s.entry k = some e)
    (hlive : e.state ≠ .ending) : otherFrames (endEntry k cause s).tx.queue = otherFrames
      (if e.isLocal then (offer (.release e.number 0) (updateEntry k (Entry.ended cause s.clock.stationTime) s)).tx
        else s.tx).queue := by
  rw [endEntry_of_live he (live_iff.2 hlive), refillSlot_others, activity_others, tellEnding_tx]
  rfl

/-- The ending of a local claim moves no peer. -/
theorem endEntry_local_peers {k : Byte × Byte} {cause : EndCause} {s : State} {e : Entry} (he : s.entry k = some e)
    (hlive : e.state ≠ .ending) (hlocal : e.isLocal = true) : (endEntry k cause s).peers = s.peers := by
  have htold : (tellEnding e cause (updateEntry k (Entry.ended cause s.clock.stationTime) s)).peers = s.peers := by
    unfold tellEnding
    rw [if_pos hlocal]
    simp
  have hrefill (t : State) : (refillSlot e t).peers = t.peers := by
    unfold refillSlot
    split <;> simp
  rw [endEntry_of_live he (live_iff.2 hlive), hrefill, (activeFrom_activity _).peers, htold]

/-! ### The events of an offer -/

/-- A queue with a place free sheds nothing. -/
theorem offerFrame_port {f : Frame} {s : State} (hroom : s.tx.queue.length < 8) : (offerFrame f s).port = s.port := by
  rw [offerFrame_room f s hroom, placeFrame_port]

theorem offer_port {b : FrameBody} {s : State} (hroom : s.tx.queue.length < 8) : (offer b s).port = s.port := by
  rcases offer_spec b s with heq | ⟨n, _, _, _, k, _, _, heq⟩ | ⟨held, _, ⟨_, heq⟩ | ⟨_, heq⟩⟩ <;> rw [heq]
  · exact offerFrame_port hroom
  · rfl
  · rfl
  · rfl

theorem activity_port {s : State} (hroom : s.tx.queue.length < 8) : (activity s).port = s.port := by
  unfold activity offerPresence
  exact offer_port hroom

/-- What an offer can post is FRAME_DROPPED. -/
theorem postEvent_mem {kind : EventKind} {a b c : Byte} {s : State} {r : EventRecord}
    (h : r ∈ (postEvent kind a b c s).port.events) : r ∈ s.port.events ∨ r.kind = kind := by
  rw [postEvent_eq] at h
  unfold portWith at h
  split at h
  · rcases List.mem_append.1 h with h | h
    · exact .inl h
    · exact .inr (List.mem_singleton.1 h ▸ rfl)
  · exact .inl h

theorem offer_events {b : FrameBody} {s : State} {r : EventRecord} (h : r ∈ (offer b s).port.events) :
    r ∈ s.port.events ∨ r.kind = .frameDropped := by
  have hdropped (b : FrameBody) (q : List Frame) (h : r ∈ (frameDropped b 0 0 (setQueue q s)).port.events) :
      r ∈ s.port.events ∨ r.kind = .frameDropped := postEvent_mem (s := setQueue q s) h
  rcases offer_spec b s with heq | ⟨n, _, _, _, k, _, _, heq⟩ | ⟨held, _, ⟨_, heq⟩ | ⟨_, heq⟩⟩ <;> rw [heq] at h
  · rcases offerFrame_cases (ownFrame s b) s with ⟨_, heq⟩ | ⟨g, q, _, _, heq⟩ | heq | heq <;> rw [heq] at h
    · rw [placeFrame_port] at h
      exact .inl h
    · rw [placeFrame_port] at h
      exact hdropped _ _ h
    · exact .inl h
    · exact hdropped _ s.tx.queue h
  · exact .inl h
  · exact .inl h
  · exact .inl h

theorem activity_events {s : State} {r : EventRecord} (h : r ∈ (activity s).port.events) :
    r ∈ s.port.events ∨ r.kind = .frameDropped := by
  unfold activity offerPresence at h
  have hoffer := offer_events h
  exact hoffer

/-! ### A frame that finds its place -/

/-- A queue takes a frame when a place is free or a frame of a lower rank can be shed. -/
def takesRank (rank : Nat) (q : List Frame) : Prop :=
  q.length < 8 ∨ ∃ g ∈ q, g.inTransmission = false ∧ rank < g.body.rank

theorem exists_lastOfRank {q : List Frame} {g : Frame} (hg : g ∈ q) (hfree : g.inTransmission = false) (hrank : 0 < g.body.rank) :
    ∃ x, lastOfRank (lowestRank q) q = some x := by
  have hle := rank_le_lowestRank hg hfree
  have hattained : ∃ x ∈ q, x.inTransmission = false ∧ x.body.rank = lowestRank q := by
    by_contra hnone
    have hlt : lowestRank q ≤ lowestRank q - 1 := lowestRank_le fun x hx hxfree => by
      have hxle := rank_le_lowestRank hx hxfree
      have hne : x.body.rank ≠ lowestRank q := fun heq => hnone ⟨x, hx, hxfree, heq⟩
      omega
    omega
  obtain ⟨x, hx, hxfree, hxrank⟩ := hattained
  cases h : lastOfRank (lowestRank q) q with
  | some y => exact ⟨y, rfl⟩
  | none => exact absurd (List.find?_eq_none.1 h x (List.mem_reverse.2 hx)) (by simp [hxfree, hxrank])

theorem offerFrame_mem {f : Frame} {s : State} (h : takesRank f.body.rank s.tx.queue) : f ∈ (offerFrame f s).tx.queue := by
  have hplaced (t : State) : f ∈ (placeFrame f t).tx.queue := by
    rw [(placeFrame_spec f t).1]
    exact mem_insertFrame.2 (.inl rfl)
  by_cases hroom : s.tx.queue.length < 8
  · rw [offerFrame_room f s hroom]
    exact hplaced s
  · obtain ⟨g, hg, hfree, hrank⟩ := h.resolve_left hroom
    obtain ⟨x, hx⟩ := exists_lastOfRank hg hfree (Nat.zero_lt_of_lt hrank)
    have hlow := Nat.lt_of_lt_of_le hrank (rank_le_lowestRank hg hfree)
    have hfull : ¬ s.tx.queue.length < Config.queueCapacity := hroom
    unfold offerFrame
    rw [if_neg hfull]
    dsimp only
    rw [if_pos hlow, hx]
    exact hplaced _

/-- A PRESENCE leaves a queue with room one with room, or one that holds a PRESENCE to be shed. -/
theorem offer_presence_takesRank {s : State} (hroom : s.tx.queue.length < 8) {rank : Nat} (hrank : rank < 3)
    (level : QuietLevel) (fp : Half) : takesRank rank (offer (.presence level fp) s).tx.queue := by
  simp only [offer]
  split
  · rw [offerFrame_room _ _ hroom, (placeFrame_spec _ s).1]
    exact .inr ⟨_, mem_insertFrame.2 (.inl rfl), rfl, hrank⟩
  · split
    · exact .inl hroom
    · exact .inl ((List.length_map _).trans_lt hroom)

theorem activity_takesRank {s : State} (hroom : s.tx.queue.length < 8) {rank : Nat} (hrank : rank < 3) :
    takesRank rank (activity s).tx.queue := by
  unfold activity offerPresence ownPresence
  have hkept (p : Presence) : (s.setPresence p).tx.queue.length < 8 := hroom
  exact offer_presence_takesRank (hkept _) hrank _ _

/-- A local claim that ends queues its RELEASE with repeat index 0, in a queue that takes it (R22). -/
theorem endEntry_release {k : Byte × Byte} {cause : EndCause} {s : State} {e : Entry} (he : s.entry k = some e)
    (hlive : e.state ≠ .ending) (hlocal : e.isLocal = true) (htakes : takesRank 0 s.tx.queue) :
    ownFrame s (.release e.number 0) ∈ (endEntry k cause s).tx.queue := by
  have hothers := endEntry_others_frames (cause := cause) he hlive
  rw [if_pos hlocal, offer_release] at hothers
  refine (mem_otherFrames.1 (hothers.symm ▸ mem_otherFrames.2 ⟨?_, rfl⟩)).1
  exact offerFrame_mem (s := updateEntry k (Entry.ended cause s.clock.stationTime) s) htakes

end Sys2Proof.Machine
end
section
/-! The end of a cue (R73, R76, R79). -/

namespace Sys2Proof.Machine

theorem entry_ended_local {e : Entry} (h : e.isLocal = true) (cause : EndCause) (now : Time) : e.ended cause now =
    { e with state := .ending, endCause := some cause, endingSince := some now, repeatsLeft := some 2 } := by
  rw [Entry.ended, if_pos h]

/-- R82: the records behind the closing of the open one. -/
theorem closeRecord_history (ch : Channel) (stop : Time) (outcome : RunOutcome) :
    (ch.closeRecord stop outcome).history = ch.history.map fun r =>
      if r.outcome = .opened then { r with stop := some stop, outcome := outcome } else r := by
  simp only [Channel.closeRecord, beq_iff_eq]

/-- R73: the channel behind the end of its cue. -/
theorem closed_countOff (ch : Channel) (above : Bool) (stop : Time) (outcome : RunOutcome) :
    ((ch.countOff above).closeRecord stop outcome).toIdle =
      { ch with state := .idle, runLength := 0, highCount := 0, offCount := 0, runStart := none, number := none,
                history := ch.history.map fun r =>
                  if r.outcome = .opened then { r with stop := some stop, outcome := outcome } else r } := by
  rw [Channel.toIdle, closeRecord_history]
  rfl

theorem updateChannel_cues_eq {c : Fin 4} {f : Channel → Channel} {s t : State} (h : t.cues = s.cues) :
    (updateChannel c f t).cues = (updateChannel c f s).cues := by simp only [updateChannel, h, State.setCues_cues]

theorem endCue_of_number {c : Fin 4} {s : State} {n : Byte} (h : s.cues.channels[c].number = some n) : endCue c s =
    updateChannel c (fun ch => (ch.closeRecord s.clock.stationTime .released).toIdle)
      (endEntry (s.settings.station, n) .released s) := by
  have hclock : (endEntry (s.settings.station, n) .released s).clock = s.clock := by simp
  unfold endCue
  rw [h]
  dsimp only
  rw [hclock]

theorem sameGround_endEntry (k : Byte × Byte) (cause : EndCause) (s : State) : sameGround s (endEntry k cause s) := by
  unfold sameGround
  simp

/-- The off count goes on below Noff. -/
theorem sampleEnabled_counts_off {c : Fin 4} {v : Byte} {s : State} {above : Bool}
    (hs : s.cues.channels[c].state = .active ∨ s.cues.channels[c].state = .blocked)
    (habove : s.settings.sources[c.castSucc].aboveLow v = above)
    (hlt : (s.cues.channels[c].countOff above).offCount < s.settings.sources[c.castSucc].nOff) :
    sampleEnabled c v s = withChannel c (s.cues.channels[c].countOff above) s := by
  subst habove
  rcases hs with hs | hs
  · rw [sampleEnabled_active hs, if_neg (Nat.not_le.2 hlt)]
  · rw [sampleEnabled_blocked hs, if_neg (Nat.not_le.2 hlt)]

/-- The off count of an ACTIVE channel reaches Noff. -/
theorem sampleEnabled_ends_cue {c : Fin 4} {v : Byte} {s : State} (hs : s.cues.channels[c].state = .active)
    (hlow : s.settings.sources[c.castSucc].aboveLow v = false)
    (hle : s.settings.sources[c.castSucc].nOff ≤ s.cues.channels[c].offCount + 1) :
    sampleEnabled c v s = endCue c (withChannel c (s.cues.channels[c].countOff false) s) := by
  have hle' : s.settings.sources[c.castSucc].nOff ≤ (s.cues.channels[c].countOff false).offCount := hle
  rw [sampleEnabled_active hs, hlow, if_pos hle']

/-- The off count of a BLOCKED channel reaches Noff. -/
theorem sampleEnabled_frees {c : Fin 4} {v : Byte} {s : State} (hs : s.cues.channels[c].state = .blocked)
    (hlow : s.settings.sources[c.castSucc].aboveLow v = false)
    (hle : s.settings.sources[c.castSucc].nOff ≤ s.cues.channels[c].offCount + 1) :
    sampleEnabled c v s = withChannel c s.cues.channels[c].toIdle s := by
  have hle' : s.settings.sources[c.castSucc].nOff ≤ (s.cues.channels[c].countOff false).offCount := hle
  rw [sampleEnabled_blocked hs, hlow, if_pos hle']

/-- Settles O20: the off count moves its channel alone, and at Noff the ending of the claim and of the channel follow. -/
theorem samplesOfActiveAndBlocked : Obligations.SamplesOfActiveAndBlocked := by
  refine ⟨?_, ?_⟩
  · intro v0 v1 v2 v3 order c s h src ch quiet next hoff hs
    have hexec := exec_cueSample_only (v0 := v0) (v1 := v1) (v2 := v2) (v3 := v3) (order := order) h
    have hlow (hq : quiet) : src.aboveLow (sampleOf v0 v1 v2 v3 c) = false :=
      (aboveLow_eq_false_iff _ _).2 (Nat.not_lt.2 hq)
    refine ⟨fun habove => hexec.trans (congrArg _ ?_), fun hq hlt => hexec.trans (congrArg _ ?_),
      fun hq hle hblocked => hexec.trans (congrArg _ (sampleEnabled_frees hblocked (hlow hq) hle))⟩
    · exact sampleEnabled_counts_off (above := true) hs ((aboveLow_iff _ _).2 (Nat.not_le.1 habove)) hoff
    · exact sampleEnabled_counts_off (above := false) hs (hlow hq) hlt
  · intro v0 v1 v2 v3 order c number e s h src ch hs hnumber hq hle hd he hlocal hlive hslot
    have hlow : src.aboveLow (sampleOf v0 v1 v2 v3 c) = false := (aboveLow_eq_false_iff _ _).2 (Nat.not_lt.2 hq)
    have hended : sampleEnabled c (sampleOf v0 v1 v2 v3 c) (samplesTaken v0 v1 v2 v3 s) =
        endCue c (withChannel c (ch.countOff false) (samplesTaken v0 v1 v2 v3 s)) := sampleEnabled_ends_cue hs hlow hle
    have hnumber' : (withChannel c (ch.countOff false) (samplesTaken v0 v1 v2 v3 s)).cues.channels[c].number = some number := by
      rw [withChannel_channel]
      exact hnumber
    refine ⟨_, (exec_cueSample_only h).trans (congrArg _ (hended.trans (endCue_of_number hnumber'))), ?_⟩
    have hkey := entry_key he
    refine ⟨?_, ?_, endEntry_presence he hlive, fun hroom => ?_, ?_, ?_,
      fun k hk => endEntry_others (s := withChannel c (ch.countOff false) (samplesTaken v0 v1 v2 v3 s)) hd hk⟩
    · rw [← entry_ended_local hlocal]
      exact endEntry_entry_self (s := withChannel c (ch.countOff false) (samplesTaken v0 v1 v2 v3 s)) hd he hlive hslot
    · rw [updateChannel_cues_eq (endEntry_released_cues _ _), updateChannel_eq, withChannel_channel, withChannel_withChannel,
        closed_countOff]
      rfl
    · have hnumber : e.number = number := congrArg Prod.snd hkey
      exact ⟨_, endEntry_release (s := withChannel c (ch.countOff false) (samplesTaken v0 v1 v2 v3 s)) (cause := .released)
        he hlive hlocal (.inl hroom), hnumber ▸ rfl, rfl⟩
    · exact sameGround_endEntry _ _ _
    · exact endEntry_local_peers (s := withChannel c (ch.countOff false) (samplesTaken v0 v1 v2 v3 s)) he hlive hlocal

/-! ### The manual cue -/

theorem manualCue_start (s : State) : manualCue 0x01 s = manualStart (activity s) := rfl

theorem manualCue_stop (s : State) : manualCue 0x02 s = manualStop (activity s) := rfl

theorem manualCue_other {p : Byte} (h1 : p ≠ 0x01) (h2 : p ≠ 0x02) (s : State) : manualCue p s = answer .unknown (activity s) := by
  rw [manualCue, if_neg h1, if_neg h2]

theorem manualStop_idle {s : State} (h : s.cues.manual = .idle) : manualStop s = answer .notActive s := by
  rw [manualStop, h]

theorem manualStop_active {s : State} {n : Byte} (h : s.cues.manual = .active) (hn : s.cues.manualNumber = some n) :
    manualStop s = answer .accepted ((endEntry (s.settings.station, n) .released s).setCues
      { (endEntry (s.settings.station, n) .released s).cues with manual := .idle, manualNumber := none }) := by
  rw [manualStop, h, hn]

theorem sameGround_answer {s t : State} (r : Reply) (h : sameGround s t) : sameGround s (answer r t) := h

theorem activity_entries (s : State) : (activity s).claims.entries = s.claims.entries := by simp

/-- Settles O22: MANUAL_CUE is activity first, and a stop in ACTIVE ends the claim of source 4. -/
theorem manualCueStops : Obligations.ManualCueStops := by
  refine ⟨⟨fun s hopen hidle => ?_, fun s n e hopen hactive hn hd he hlocal hlive hslot => ?_⟩,
    fun p s h1 h2 => ⟨fun hopen => ?_, fun hheld hdue hrun => atRunningPort_eq_of_not hheld hdue hrun⟩⟩
  · have hact := activeFrom_activity s
    have hstop : manualCue 0x02 s = answer .notActive (activity s) :=
      (manualCue_stop s).trans (manualStop_idle (by rw [hact.cues, hidle]))
    refine ⟨_, (atRunningPort_eq hopen).trans (congrArg _ hstop), rfl, hact.presence, fun hroom => ?_, hact.ground, hact.claims,
      hact.selector, hact.cues, hact.peers, hact.cells⟩
    show (activity s).port.events = s.port.events
    rw [activity_port hroom]
  · have hact := activeFrom_activity s
    have hstation : (activity s).settings.station = s.settings.station := by rw [hact.settings]
    have he' : (activity s).entry (s.settings.station, n) = some e := by rw [activity_entry, he]
    have hd' : distinctClaims (activity s) := distinctClaims_congr (keys_congr (activity_entries s)) hd
    have hstop : manualCue 0x02 s = answer .accepted ((endEntry (s.settings.station, n) .released (activity s)).setCues
        { (endEntry (s.settings.station, n) .released (activity s)).cues with manual := .idle, manualNumber := none }) := by
      rw [manualCue_stop, manualStop_active (by rw [hact.cues, hactive]) (by rw [hact.cues, hn]), hstation]
    refine ⟨_, (atRunningPort_eq hopen).trans (congrArg _ hstop), rfl, ?_, ?_, endEntry_presence he' hlive, fun hroom => ?_,
      fun k hk => ?_, ?_, ?_⟩
    · show { (endEntry (s.settings.station, n) .released (activity s)).cues with manual := .idle, manualNumber := none } = _
      rw [endEntry_released_cues, hact.cues]
    · rw [← entry_ended_local hlocal, ← hact.clock]
      exact endEntry_entry_self hd' he' hlive (by rwa [slotFits, hact.selector])
    · have hnumber : e.number = n := congrArg Prod.snd (entry_key he)
      exact ⟨_, endEntry_release (cause := .released) he' hlive hlocal (activity_takesRank hroom (by decide)), hnumber ▸ rfl,
        hstation⟩
    · rw [← activity_entry s k]
      exact endEntry_others hd' hk
    · have hended := sameGround_endEntry (s.settings.station, n) .released (activity s)
      exact sameGround_trans hact.ground hended
    · rw [← hact.peers]
      exact endEntry_local_peers he' hlive hlocal
  · have hact := activeFrom_activity s
    exact ⟨_, (atRunningPort_eq hopen).trans (congrArg _ (manualCue_other h1 h2 s)), rfl, hact.presence, hact.ground, hact.claims,
      hact.selector, hact.cues, hact.peers, hact.cells⟩

end Sys2Proof.Machine
end
section
/-! Local claims (R17, R19, R20, R69 to R72, R78). -/

namespace Sys2Proof.Machine

/-! ### A place and a number -/

theorem makeRoom_of_room {takes : Entry → Bool} {s : State} (h : s.claims.entries.length < 16) : makeRoom takes s = some s := if_pos h

theorem makeRoom_of_ending {takes : Entry → Bool} {s : State} {v : Entry} (h : s.claims.entries.length = 16)
    (hv : endingVictim s = some v) : makeRoom takes s = some (removeEntry v.key s) := by
  have hfull : ¬ s.claims.entries.length < Config.claimCapacity := by rw [h]; decide
  rw [makeRoom, if_neg hfull, hv]

theorem makeRoom_of_waiting {takes : Entry → Bool} {s : State} {v : Entry} (h : s.claims.entries.length = 16)
    (hnone : endingVictim s = none) (hv : waitingVictim s = some v) :
    makeRoom takes s = if takes v then some (removeEntry v.key s) else none := by
  have hfull : ¬ s.claims.entries.length < Config.claimCapacity := by rw [h]; decide
  rw [makeRoom, if_neg hfull, hnone, hv]

/-- A full table of local and ON_AIR entries has no place for anyone. -/
theorem makeRoom_of_noPlace {takes : Entry → Bool} {s : State} (h : noPlace s) : makeRoom takes s = none := by
  have hfull : ¬ s.claims.entries.length < Config.claimCapacity := by rw [h.1]; decide
  have hending : endingVictim s = none := endingVictim_eq_none.2 fun e he hstate =>
    (h.2 e he).resolve_right (by rw [hstate]; decide)
  have hwaiting : waitingVictim s = none := waitingVictim_eq_none.2 fun e he hstate =>
    (h.2 e he).resolve_right (by rw [hstate]; decide)
  rw [makeRoom, if_neg hfull, hending, hwaiting]

theorem setEntries_self (s : State) : setEntries s.claims.entries s = s := rfl

/-- The place of a local claim is made whatever the victim's score. -/
theorem PlaceMade.makeRoom_eq {s : State} {rest : List Entry} (hd : distinctClaims s) (h : PlaceMade s rest) :
    makeRoom (fun _ => true) s = some (setEntries rest s) := by
  rcases h with ⟨hroom, rfl⟩ | ⟨v, hv, rfl⟩
  · exact makeRoom_of_room hroom
  · have hremoved : removeEntry v.key s = setEntries (s.claims.entries.filter fun e => e.key ≠ v.key) s := by
      refine congrArg (setEntries · s) (List.filter_congr fun e _ => ?_)
      rw [bne, beq_eq_decide, decide_not]
    rw [← hremoved]
    rcases hv with hv | hv
    · exact makeRoom_of_ending hv.full (hv.found hd)
    · obtain ⟨hnone, hfound⟩ := hv.found hd
      rw [makeRoom_of_waiting hv.full hnone hfound, if_pos rfl]

/-- What stays in the table is part of it, with every local entry, and leaves a place. -/
theorem PlaceMade.stays {s : State} {rest : List Entry} (hd : distinctClaims s) (h : PlaceMade s rest) :
    rest.Sublist s.claims.entries ∧ rest.length < 16 ∧ ∀ e ∈ s.claims.entries, e.isLocal = true → e ∈ rest := by
  rcases h with ⟨hroom, rfl⟩ | ⟨v, hv, rfl⟩
  · exact ⟨.refl _, hroom, fun e he _ => he⟩
  · have hheld : s.claims.entries.length = 16 ∧ v ∈ s.claims.entries ∧ v.isLocal = false := by
      rcases hv with hv | hv <;> exact ⟨hv.full, hv.held, hv.remote⟩
    obtain ⟨hfull, hmem, hremote⟩ := hheld
    refine ⟨List.filter_sublist, ?_, fun e he hlocal => List.mem_filter.2 ⟨he, decide_eq_true fun hkey => ?_⟩⟩
    · rw [← hfull]
      exact List.length_filter_lt_length_iff_exists.2 ⟨v, hmem, by simp⟩
    · rw [eq_of_key_eq hd he hmem hkey, hremote] at hlocal
      cases hlocal

theorem numberHeld_congr {l m : List Entry} (h : ∀ e, e.isLocal = true → (e ∈ l ↔ e ∈ m)) (n : Byte) :
    numberHeld l n = numberHeld m n := by
  rw [Bool.eq_iff_iff, numberHeld_iff, numberHeld_iff]
  exact exists_congr fun e => ⟨fun ⟨he, hlocal, hrest⟩ => ⟨(h e hlocal).1 he, hlocal, hrest⟩,
    fun ⟨he, hlocal, hrest⟩ => ⟨(h e hlocal).2 he, hlocal, hrest⟩⟩

/-- The number that is drawn is the first that no live local entry holds. -/
theorem NumberDrawn.drawn_eq {s t : State} {number : Byte} (h : NumberDrawn s number) (hroom : t.claims.entries.length < 16)
    (hnext : t.claims.nextNumber = s.claims.nextNumber)
    (hlocals : ∀ e, e.isLocal = true → (e ∈ t.claims.entries ↔ e ∈ s.claims.entries)) : drawnNumber t = number := by
  obtain ⟨hfree, hpassed⟩ := freeNumber_spec (Nat.le_of_lt hroom) t.claims.nextNumber
  have hheld := numberHeld_congr hlocals
  have hfree' : numberHeld s.claims.entries number = false := by
    refine Bool.eq_false_iff.2 fun hnumber => ?_
    obtain ⟨e, he, hlocal, hlive, heq⟩ := numberHeld_iff.1 hnumber
    exact h.free e he hlocal hlive heq
  have hdrawn : drawnNumber t = freeNumber t.claims.entries (t.claims.entries.length + 1) t.claims.nextNumber := rfl
  rw [← hdrawn, hheld] at hfree
  rw [← hdrawn, hnext] at hpassed
  rcases Nat.lt_trichotomy (drawnNumber t - s.claims.nextNumber).toNat (number - s.claims.nextNumber).toNat with hlt | heq | hlt
  · exact absurd (numberHeld_iff.2 (h.passed _ hlt)) (by rw [hfree]; decide)
  · exact sub_left_injective (BitVec.eq_of_toNat_eq heq)
  · have := hpassed number hlt
    rw [hheld, hfree'] at this
    cases this

/-! ### The first CLAIM -/

/-- The CLAIM frames for a number that wait outside transmission. -/
def waitingClaims (n : Byte) (q : List Frame) : List Frame := q.filter (Frame.isWaitingClaim n)

theorem not_isPresence_of_waitingClaim {f : Frame} {n : Byte} (h : f.isWaitingClaim n = true) : f.isPresence = false := by
  unfold Frame.isWaitingClaim at h
  split at h
  · next hb => simp [Frame.isPresence, hb]
  · cases h

theorem waitingClaims_otherFrames (n : Byte) (q : List Frame) : waitingClaims n (otherFrames q) = waitingClaims n q := by
  unfold waitingClaims otherFrames
  rw [List.filter_filter]
  refine List.filter_congr fun f _ => ?_
  cases hf : f.isWaitingClaim n with
  | true => simp [not_isPresence_of_waitingClaim hf]
  | false => simp

theorem waitingClaims_congr {n : Byte} {p q : List Frame} (h : otherFrames p = otherFrames q) :
    waitingClaims n p = waitingClaims n q := by
  rw [← waitingClaims_otherFrames n p, h, waitingClaims_otherFrames]

theorem waitingClaims_eq_nil {n : Byte} {q : List Frame} :
    waitingClaims n q = [] ↔ ∀ f ∈ q, f.isWaitingClaim n = false := by
  simp [waitingClaims]

/-- A CLAIM that is offered with none waiting for its number is the one that then waits. -/
theorem offer_claim_new {n : Byte} {cls : ClaimClass} {areas label : Byte} {k : Nat} {s : State}
    (hnone : waitingClaims n s.tx.queue = []) (htakes : takesRank 1 s.tx.queue) :
    waitingClaims n (offer (.claim n cls areas label k) s).tx.queue = [ownFrame s (.claim n cls areas label k)] := by
  have hany : s.tx.queue.any (Frame.isWaitingClaim n) = false := by
    rw [List.any_eq_false]
    exact fun f hf => by simp [waitingClaims_eq_nil.1 hnone f hf]
  have hself : (ownFrame s (.claim n cls areas label k)).isWaitingClaim n = true := by simp [Frame.isWaitingClaim, ownFrame]
  have hoffer : offer (.claim n cls areas label k) s = offerFrame (ownFrame s (.claim n cls areas label k)) s := by
    simp [offer, hany]
  have hinsert (q : List Frame) (hq : waitingClaims n q = []) :
      waitingClaims n (insertFrame (ownFrame s (.claim n cls areas label k)) q) = [ownFrame s (.claim n cls areas label k)] := by
    refine List.perm_singleton.1 (((insertFrame_perm _ q).filter _).trans (.of_eq ?_))
    rw [List.filter_cons_of_pos hself]
    exact congrArg _ hq
  rw [hoffer]
  rcases offerFrame_queue (ownFrame s (.claim n cls areas label k)) s with ⟨_, heq⟩ | ⟨q, hsub, _, heq⟩ | heq
  · rw [heq]
    exact hinsert _ hnone
  · rw [heq]
    exact hinsert q (List.sublist_nil.1 (hnone ▸ hsub.filter _))
  · have hmem := offerFrame_mem (f := ownFrame s (.claim n cls areas label k)) htakes
    rw [heq] at hmem
    rw [waitingClaims_eq_nil.1 hnone _ hmem] at hself
    cases hself

/-- A CLAIM that waits for the number takes the count of the one offered. -/
theorem offer_claim_held {n : Byte} {cls cls' : ClaimClass} {areas areas' label label' : Byte} {k k' : Nat} {f : Frame} {s : State}
    (hbody : f.body = .claim n cls' areas' label' k') (hone : waitingClaims n s.tx.queue = [f]) :
    waitingClaims n (offer (.claim n cls areas label k) s).tx.queue = [{ f with body := .claim n cls' areas' label' k }] := by
  have hmem : f ∈ s.tx.queue ∧ f.isWaitingClaim n = true := by
    have hwaits : f ∈ waitingClaims n s.tx.queue := by rw [hone]; exact List.mem_singleton_self f
    exact List.mem_filter.1 hwaits
  have hany : s.tx.queue.any (Frame.isWaitingClaim n) = true := List.any_eq_true.2 ⟨f, hmem⟩
  have hoffer : offer (.claim n cls areas label k) s =
      setQueue (s.tx.queue.map fun f => if f.isWaitingClaim n then f.withRefreshCount k else f) s := by
    simp [offer, hany]
  have hkept : (Frame.isWaitingClaim n ∘ fun f => if f.isWaitingClaim n then f.withRefreshCount k else f) =
      Frame.isWaitingClaim n := by
    funext g
    simp only [Function.comp_apply]
    split
    · exact g.withRefreshCount_isWaitingClaim k n
    · rfl
  rw [hoffer]
  show (s.tx.queue.map _).filter (Frame.isWaitingClaim n) = _
  rw [List.filter_map, hkept, show s.tx.queue.filter (Frame.isWaitingClaim n) = [f] from hone, List.map_singleton, hmem.2, if_pos rfl]
  simp only [Frame.withRefreshCount, hbody]

/-! ### The claim that is made -/

theorem select_claims (s : State) : (select s).claims = { s.claims with entries := (select s).claims.entries } := by
  rcases select_spec s with heq | ⟨x, _, _, heq⟩ | ⟨k, x, y, _, _, _, _, _, heq⟩ <;> rw [heq]
  · rw [(onAirChange_spec _ _ _).2.2.1]
    rfl
  · rw [(onAirChange_spec _ _ _).2.2.1]
    rfl

/-- `S` is `s` as far as a local claim looks at it: a sample or a command of the port may have come before. -/
structure SameForClaim (s S : State) : Prop where
  claims : S.claims = s.claims
  settings : S.settings = s.settings
  clock : S.clock = s.clock
  peers : S.peers = s.peers
  others : otherFrames S.tx.queue = otherFrames s.tx.queue
  takes : s.tx.queue.length < 8 → takesRank 1 S.tx.queue

theorem SameForClaim.of_activeFrom {s t : State} (h : ActiveFrom s t) (hothers : otherFrames t.tx.queue = otherFrames s.tx.queue)
    (htakes : s.tx.queue.length < 8 → takesRank 1 t.tx.queue) : SameForClaim s t :=
  ⟨h.claims, h.settings, h.clock, h.peers, hothers, htakes⟩

theorem sameForClaim_activity (s : State) : SameForClaim s (activity s) :=
  .of_activeFrom (activeFrom_activity s) (activity_others s) fun hroom => activity_takesRank hroom (by decide)

theorem EndingVictim.congr {s t : State} {v : Entry} (h : EndingVictim s v) (hclaims : t.claims = s.claims)
    (hnow : t.clock.stationTime = s.clock.stationTime) : EndingVictim t v := by
  obtain ⟨hfull, hheld, hremote, hending, hfirst⟩ := h
  rw [← hclaims] at hfull hheld hfirst
  rw [← hnow] at hfirst
  exact ⟨hfull, hheld, hremote, hending, hfirst⟩

theorem WaitingVictim.congr {s t : State} {v : Entry} (h : WaitingVictim s v) (hclaims : t.claims = s.claims) :
    WaitingVictim t v := by
  obtain ⟨hfull, hheld, hremote, hwaiting, hnone, hlowest⟩ := h
  rw [← hclaims] at hfull hheld hnone hlowest
  exact ⟨hfull, hheld, hremote, hwaiting, hnone, hlowest⟩

theorem PlaceMade.congr {s t : State} {rest : List Entry} (h : PlaceMade s rest) (hclaims : t.claims = s.claims)
    (hnow : t.clock.stationTime = s.clock.stationTime) : PlaceMade t rest := by
  rcases h with h | ⟨v, hv, hrest⟩
  · exact .inl (by rw [hclaims]; exact h)
  · exact .inr ⟨v, hv.imp (·.congr hclaims hnow) (·.congr hclaims), by rw [hclaims]; exact hrest⟩

theorem localMade_keys (c : Fin 5) (s : State) : (localMade c s).keys =
    (s.keys.filter fun j => j != (s.settings.station, drawnNumber s)) ++ [(s.settings.station, drawnNumber s)] := by
  unfold localMade
  rw [keys_select]
  have hadmitted : (localAdmitted c s).keys = (s.keys.filter fun j => j != (s.settings.station, drawnNumber s)) ++
      [(s.settings.station, drawnNumber s)] := by
    rw [localAdmitted, keys_admitEntry, numberTaken, keys_removeEntry]
    rfl
  rw [← hadmitted]
  exact keys_congr (by simp)

theorem newLocalEntry_congr {s t : State} (hsettings : t.settings = s.settings)
    (hsecond : t.clock.secondCount = s.clock.secondCount) (c : Fin 5) (n : Byte) : newLocalEntry t c n = newLocalEntry s c n := by
  unfold newLocalEntry
  rw [hsettings, hsecond]

theorem localAdmitted_keys (c : Fin 5) (s : State) : (localAdmitted c s).keys =
    (s.keys.filter fun j => j != (s.settings.station, drawnNumber s)) ++ [(s.settings.station, drawnNumber s)] := by
  rw [localAdmitted, keys_admitEntry, numberTaken, keys_removeEntry]
  rfl

theorem distinctClaims_localAdmitted (c : Fin 5) {s : State} (hd : distinctClaims s) : distinctClaims (localAdmitted c s) := by
  rw [distinctClaims_iff]
  show (localAdmitted c s).keys.Nodup
  rw [localAdmitted_keys]
  exact ((distinctClaims_iff s).1 hd).filter _ |>.append (List.nodup_singleton _) (by simp)

/-- The entry of a local claim is found by its identity, and every other where it stood. -/
theorem localAdmitted_entry (c : Fin 5) (s : State) (k : Byte × Byte) : (localAdmitted c s).entry k =
    if k = (s.settings.station, drawnNumber s) then some (newLocalEntry s c (drawnNumber s)) else s.entry k := by
  have htaken : (numberTaken s).entry k = if k = (s.settings.station, drawnNumber s) then none else s.entry k :=
    removeEntry_spec _ k (s.setClaims { s.claims with nextNumber := drawnNumber s + 1 })
  have hnew : newLocalEntry (numberTaken s) c (drawnNumber s) = newLocalEntry s c (drawnNumber s) := newLocalEntry_congr rfl rfl c _
  have hkey : (newLocalEntry s c (drawnNumber s)).key = (s.settings.station, drawnNumber s) := rfl
  rw [localAdmitted, admitEntry_spec, htaken, hnew, hkey]
  by_cases hk : k = (s.settings.station, drawnNumber s)
  · simp [hk]
  · rw [if_neg hk, if_neg hk]
    cases s.entry k with
    | some x => rfl
    | none => exact if_neg fun h => hk h.symm

/-- What a local claim leaves, from the state before its last selection run. -/
def localOffered (c : Fin 5) (s : State) : State := activity (offer (firstClaim s.settings c (drawnNumber s)) (localAdmitted c s))

theorem localMade_eq (c : Fin 5) (s : State) : localMade c s = select (localOffered c s) := rfl

theorem localOffered_claims (c : Fin 5) (s : State) : (localOffered c s).claims = (localAdmitted c s).claims := by
  simp [localOffered]

theorem localMade_claims (c : Fin 5) (s : State) : (localMade c s).claims =
    { s.claims with entries := (localMade c s).claims.entries, nextNumber := drawnNumber s + 1 } := by
  rw [localMade_eq]
  refine (select_claims _).trans ?_
  rw [localOffered_claims]
  rfl

/-- An entry of the table with the new claim in it is found after the selection run, its state aside. -/
theorem localMade_entry {c : Fin 5} {s : State} (hd : distinctClaims s) {k : Byte × Byte} {e : Entry}
    (he : (localAdmitted c s).entry k = some e) :
    ∃ st, (localMade c s).entry k = some { e with state := st } ∧ (MayGoOnAir e st ∨ st = .waiting) := by
  have hkeys : (localOffered c s).claims.entries = (localAdmitted c s).claims.entries := by rw [localOffered_claims]
  rw [localMade_eq]
  obtain ⟨st, hfound, hmay⟩ := select_entry (distinctClaims_congr (keys_congr hkeys) (distinctClaims_localAdmitted c hd))
    ((entry_congr hkeys k).trans he)
  exact ⟨st, hfound, hmay.imp_right And.right⟩

theorem localMade_waitingClaims (c : Fin 5) (s : State) (n : Byte) : waitingClaims n (localMade c s).tx.queue =
    waitingClaims n (offer (firstClaim s.settings c (drawnNumber s)) (localAdmitted c s)).tx.queue :=
  waitingClaims_congr ((select_others _).trans (activity_others _))

theorem localMade_peers (c : Fin 5) (s : State) : (localMade c s).peers = s.peers := by
  simp [localMade, localAdmitted, numberTaken]

theorem localMade_presence (c : Fin 5) (s : State) : (localMade c s).presence = presenceActive :=
  select_presence (activity_spec _)

theorem localClaimMade {s S : State} {c : Fin 5} {number : Byte} {rest : List Entry} (hsame : SameForClaim s S)
    (hd : distinctClaims s) (hdrawn : NumberDrawn s number) (hplace : PlaceMade s rest) :
    drawnNumber (setEntries rest S) = number ∧ LocalClaimMade s c number rest (localMade c (setEntries rest S)) := by
  obtain ⟨hsub, hroom, hlocals⟩ := hplace.stays hd
  have hnumber : drawnNumber (setEntries rest S) = number :=
    hdrawn.drawn_eq hroom (congrArg ClaimTable.nextNumber hsame.claims :) fun e hlocal =>
      ⟨fun he => hsub.subset he, fun he => hlocals e he hlocal⟩
  have hdrest : distinctClaims (setEntries rest S) := hd.sublist hsub
  have hstation : (setEntries rest S).settings.station = s.settings.station := congrArg Settings.station hsame.settings
  have hqueue (n : Byte) : waitingClaims n S.tx.queue = waitingClaims n s.tx.queue := waitingClaims_congr hsame.others
  have hclaim : firstClaim (setEntries rest S).settings c number = firstClaim s.settings c number :=
    congrArg (firstClaim · c number) hsame.settings
  have hframe : ownFrame (localAdmitted c (setEntries rest S)) (firstClaim s.settings c number) =
      ownFrame s (firstClaim s.settings c number) := by
    show (⟨S.settings.station, S.claims.startMark, _, _, _⟩ : Frame) = _
    rw [hsame.settings, hsame.claims]
    rfl
  refine ⟨hnumber, ?_⟩
  constructor
  case made =>
    have he := localAdmitted_entry c (setEntries rest S) (s.settings.station, number)
    rw [hnumber, hstation, if_pos rfl, newLocalEntry_congr (t := setEntries rest S) hsame.settings
      (congrArg Clock.secondCount hsame.clock :)] at he
    obtain ⟨st, hfound, hmay⟩ := localMade_entry hdrest he
    refine ⟨_, hfound, rfl, ?_⟩
    rcases hmay with (rfl | ⟨-, hcandidate, rfl⟩) | rfl
    · exact ⟨nofun, fun _ => rfl⟩
    · exact ⟨nofun, fun hnot => absurd (hcandidate.symm.trans hnot) (by decide)⟩
    · exact ⟨nofun, fun _ => rfl⟩
  case keys =>
    have hkeys := localMade_keys c (setEntries rest S)
    rw [hnumber, hstation, keys_setEntries] at hkeys
    refine hkeys.trans (congrArg (· ++ _) (List.filter_congr fun k _ => ?_))
    rw [bne, beq_eq_decide, decide_not]
  case others =>
    intro x hx hkey
    have he := localAdmitted_entry c (setEntries rest S) x.key
    rw [hnumber, hstation, if_neg hkey, entry_of_mem hdrest hx] at he
    obtain ⟨st, hfound, -⟩ := localMade_entry hdrest he
    exact ⟨_, hfound, rfl⟩
  case table =>
    rw [localMade_claims, hnumber]
    show ({ S.claims with entries := _, nextNumber := _ } : ClaimTable) = _
    rw [hsame.claims]
  case queued =>
    intro hnone hlength
    have hnew := localMade_waitingClaims c (setEntries rest S) number
    rw [hnumber, hclaim] at hnew
    refine hnew.trans ?_
    rw [firstClaim, offer_claim_new (s := localAdmitted c (setEntries rest S))
      ((hqueue number).trans (waitingClaims_eq_nil.2 hnone)) (hsame.takes hlength)]
    exact congrArg (fun f => [f]) hframe
  case coalesced =>
    intro f cls areas label k hbody _ hone
    have hheld := localMade_waitingClaims c (setEntries rest S) number
    rw [hnumber, hclaim] at hheld
    refine hheld.trans ?_
    rw [firstClaim]
    exact offer_claim_held hbody ((hqueue number).trans hone)
  case active => exact localMade_presence c _
  case peers => exact (localMade_peers c _).trans hsame.peers

end Sys2Proof.Machine
end
section
/-! The cue sources ask for local claims (R17, R19, R20, R69 to R72, R78). -/

namespace Sys2Proof.Machine

/-! ### A validated run -/

/-- A channel whose run is about to be judged, the sample counted. -/
def Channel.counted (now : Time) (src : SourceConfig) (v : Byte) (ch : Channel) : Channel :=
  { ch with state := .run, runLength := runAfter ch, highCount := highAfter src v ch,
            runStart := if ch.state = .idle then some now else ch.runStart }

theorem counted_runStart (now : Time) (src : SourceConfig) (v : Byte) (ch : Channel) :
    (ch.counted now src v).runStart.getD now = runStartAt now ch := by
  unfold Channel.counted runStartAt
  split <;> rfl

theorem writeRecord_eq (r : HistoryRecord) (ch : Channel) : ch.writeRecord r = recorded r ch := rfl

/-- R70: the channel whose run became a claim. -/
theorem created_counted (now : Time) (src : SourceConfig) (v n : Byte) (ch : Channel) :
    (ch.counted now src v).created now n =
      { recorded ⟨runStartAt now ch, none, .opened, some n⟩ ch with
        state := .active, runLength := 0, highCount := 0, offCount := 0, runStart := none, number := some n } := by
  rw [Channel.created, counted_runStart, writeRecord_eq, Channel.counted]
  unfold recorded
  dsimp only
  split <;> rfl

/-- R71: the channel whose run was refused. -/
theorem refused_counted (now : Time) (src : SourceConfig) (v : Byte) (ch : Channel) :
    (ch.counted now src v).refused now =
      { recorded ⟨runStartAt now ch, some now, .refused, none⟩ ch with
        state := .blocked, runLength := 0, highCount := 0, offCount := 0, runStart := none, number := none } := by
  rw [Channel.refused, counted_runStart, writeRecord_eq, Channel.counted]
  unfold recorded
  dsimp only
  split <;> rfl

theorem Validates.validated {s : State} {c : Fin 4} {v : Byte} (h : Validates s c v) (now : Time) :
    s.settings.sources[c.castSucc].validated (s.cues.channels[c].counted now s.settings.sources[c.castSucc] v) = true := by
  have hhigh : highAfter s.settings.sources[c.castSucc] v s.cues.channels[c] =
      min ((if s.cues.channels[c].state = .idle then 0 else s.cues.channels[c].highCount)
        + if s.settings.sources[c.castSucc].highT.toNat < netLevel s.settings.sources[c.castSucc] v then 1 else 0) 255 := by
    have hle := h.highCount
    unfold highAfter
    dsimp only
    split <;> split <;> omega
  have hlong := h.long
  have hvalid := h.high
  rw [← hhigh] at hvalid
  simp only [SourceConfig.validated, Bool.and_eq_true, decide_eq_true_eq]
  exact ⟨hlong, hvalid⟩

/-- A validating sample, where the channel was in RUN, asks for a claim; where it was IDLE, after activity. -/
theorem Validates.sampleEnabled_eq {s : State} {c : Fin 4} {v : Byte} (h : Validates s c v) : sampleEnabled c v s =
    requestClaim c (if s.cues.channels[c].state = .idle then
        activity (withChannel c (s.cues.channels[c].counted s.clock.stationTime s.settings.sources[c.castSucc] v) s)
      else withChannel c (s.cues.channels[c].counted s.clock.stationTime s.settings.sources[c.castSucc] v) s) := by
  have hrequests {t : State} (hcues : t.cues =
      (withChannel c (s.cues.channels[c].counted s.clock.stationTime s.settings.sources[c.castSucc] v) s).cues)
      (hsettings : t.settings = s.settings) : validateRun c t = requestClaim c t := by
    rw [validateRun, hsettings, hcues, withChannel_channel, if_pos (h.validated _)]
  rcases h.state with hidle | hrun
  · rw [sampleEnabled_idle hidle h.aboveLow, if_pos hidle]
    have hcounted : ({ s.cues.channels[c] with
        state := .run, runLength := runAfter s.cues.channels[c],
        highCount := highAfter s.settings.sources[c.castSucc] v s.cues.channels[c], runStart := some s.clock.stationTime } : Channel) =
        s.cues.channels[c].counted s.clock.stationTime s.settings.sources[c.castSucc] v := by
      rw [Channel.counted, if_pos hidle]
    rw [hcounted]
    exact hrequests (activeFrom_activity _).cues (activeFrom_activity _).settings
  · have hnot : ¬ s.cues.channels[c].state = .idle := by rw [hrun]; decide
    rw [sampleEnabled_run hrun h.aboveLow, if_neg hnot]
    have hcounted : ({ s.cues.channels[c] with
        state := .run, runLength := runAfter s.cues.channels[c],
        highCount := highAfter s.settings.sources[c.castSucc] v s.cues.channels[c] } : Channel) =
        s.cues.channels[c].counted s.clock.stationTime s.settings.sources[c.castSucc] v := by
      rw [Channel.counted, if_neg hnot]
    rw [hcounted]
    exact hrequests rfl rfl

/-- The state in which a validating sample asks for its claim. -/
def validatedAt (c : Fin 4) (v : Byte) (s : State) : State :=
  if s.cues.channels[c].state = .idle then
    activity (withChannel c (s.cues.channels[c].counted s.clock.stationTime s.settings.sources[c.castSucc] v) s)
  else withChannel c (s.cues.channels[c].counted s.clock.stationTime s.settings.sources[c.castSucc] v) s

theorem sameForClaim_validatedAt (c : Fin 4) (v : Byte) (s : State) : SameForClaim s (validatedAt c v s) := by
  unfold validatedAt
  split
  · obtain ⟨hclaims, hsettings, hclock, hpeers, hothers, htakes⟩ := sameForClaim_activity
      (withChannel c (s.cues.channels[c].counted s.clock.stationTime s.settings.sources[c.castSucc] v) s)
    exact ⟨hclaims, hsettings, hclock, hpeers, hothers, htakes⟩
  · exact ⟨rfl, rfl, rfl, rfl, rfl, .inl⟩

theorem validatedAt_cues (c : Fin 4) (v : Byte) (s : State) : (validatedAt c v s).cues =
    (withChannel c (s.cues.channels[c].counted s.clock.stationTime s.settings.sources[c.castSucc] v) s).cues := by
  unfold validatedAt
  split
  · exact (activeFrom_activity _).cues
  · rfl

theorem sameGround_validatedAt (c : Fin 4) (v : Byte) (s : State) : sameGround s (validatedAt c v s) := by
  unfold validatedAt
  split
  · exact (activeFrom_activity (withChannel c _ s)).ground
  · exact ⟨rfl, rfl, rfl, rfl, rfl, rfl⟩

theorem requestClaim_made {c : Fin 4} {s t : State} (h : makeRoom (fun _ => true) s = some t) : requestClaim c s =
    updateChannel c (Channel.created (localMade c.castSucc t).clock.stationTime (drawnNumber t)) (localMade c.castSucc t) := by
  rw [requestClaim, createLocal_eq h]

theorem requestClaim_refused {c : Fin 4} {s : State} (h : makeRoom (fun _ => true) s = none) : requestClaim c s =
    postEvent .claimRefused (countByte c.val) s.settings.sources[c.castSucc].cls.code s.settings.sources[c.castSucc].areas
      (updateChannel c (Channel.refused s.clock.stationTime) s) := by
  rw [requestClaim, createLocal_eq_none h]

theorem localMade_cues (c : Fin 5) (s : State) : (localMade c s).cues = s.cues := by
  simp [localMade, localAdmitted, numberTaken]

theorem sameGround_localMade (c : Fin 5) (s : State) : sameGround s (localMade c s) := by
  unfold sameGround
  simp [localMade, localAdmitted, numberTaken]

/-- A claim that is made is made also where the cue sources are written behind it. -/
theorem LocalClaimMade.setCues {s t : State} {c : Fin 5} {n : Byte} {rest : List Entry} (h : LocalClaimMade s c n rest t)
    (x : CueFrontEnd) : LocalClaimMade s c n rest (t.setCues x) :=
  ⟨h.made, h.keys, h.others, h.table, h.queued, h.coalesced, h.active, h.peers⟩

/-- A validated run for which a place can be made becomes a claim. -/
theorem sampleEnabled_creates {s : State} {c : Fin 4} {v number : Byte} {rest : List Entry} (h : Validates s c v)
    (hd : distinctClaims s) (hdrawn : NumberDrawn s number) (hplace : PlaceMade s rest) :
    LocalClaimMade s c.castSucc number rest (sampleEnabled c v s)
    ∧ (sampleEnabled c v s).cues = (withChannel c
        { recorded ⟨runStartAt s.clock.stationTime s.cues.channels[c], none, .opened, some number⟩ s.cues.channels[c] with
          state := .active, runLength := 0, highCount := 0, offCount := 0, runStart := none, number := some number } s).cues
    ∧ sameGround s (sampleEnabled c v s) := by
  have hsame := sameForClaim_validatedAt c v s
  obtain ⟨hnumber, hmade⟩ := localClaimMade (c := c.castSucc) hsame hd hdrawn hplace
  have hroom := (PlaceMade.congr hplace hsame.claims (congrArg Clock.stationTime hsame.clock)).makeRoom_eq (hd := by rwa [distinctClaims, hsame.claims])
  have heq : sampleEnabled c v s = updateChannel c (Channel.created s.clock.stationTime number)
      (localMade c.castSucc (setEntries rest (validatedAt c v s))) := by
    have hclock : (localMade c.castSucc (setEntries rest (validatedAt c v s))).clock = s.clock := by
      obtain ⟨-, -, hclock, -, -, -⟩ := sameGround_localMade c.castSucc (setEntries rest (validatedAt c v s))
      exact hclock.trans hsame.clock
    rw [h.sampleEnabled_eq]
    refine (requestClaim_made hroom).trans ?_
    rw [hnumber, hclock]
  rw [heq]
  refine ⟨hmade.setCues _, ?_, ?_⟩
  · have hcues : (localMade c.castSucc (setEntries rest (validatedAt c v s))).cues =
        (withChannel c (s.cues.channels[c].counted s.clock.stationTime s.settings.sources[c.castSucc] v) s).cues :=
      (localMade_cues _ _).trans (validatedAt_cues c v s)
    rw [updateChannel_cues_eq hcues, updateChannel_eq, withChannel_channel, created_counted, withChannel_withChannel]
  · exact sameGround_trans (sameGround_validatedAt c v s)
      (sameGround_localMade c.castSucc (setEntries rest (validatedAt c v s)))

/-! ### Two validated runs -/

/-- Disabled channels can be left out of the samples. -/
theorem foldl_sampleChannel_filter {values : Vector Byte 4} {p : Fin 4 → Bool} {l : List (Fin 4)} {s : State}
    (h : ∀ d : Fin 4, p d = false → s.settings.sources[d.castSucc].areas = 0) :
    l.foldl (fun s c => sampleChannel c values[c] s) s = (l.filter p).foldl (fun s c => sampleChannel c values[c] s) s := by
  induction l generalizing s with
  | nil => rfl
  | cons d l ih =>
    cases hd : p d with
    | true =>
      rw [List.filter_cons_of_pos hd]
      exact ih fun x hx => by rw [sampleChannel_settings]; exact h x hx
    | false =>
      rw [List.filter_cons_of_neg (by simp [hd]), List.foldl_cons, sampleChannel_disabled (h d hd)]
      exact ih h

theorem channelOrder_pair : ∀ c d : Fin 4, c ≠ d → ∀ order : Fin 24,
    (channelOrder order).filter (fun x => x == c || x == d) = [c, d]
    ∨ (channelOrder order).filter (fun x => x == c || x == d) = [d, c] := by decide

theorem exists_channelOrder : ∀ c d : Fin 4, c ≠ d →
    ∃ order : Fin 24, (channelOrder order).filter (fun x => x == c || x == d) = [c, d] := by decide

/-- Two numbers from the next local claim number on are free of the entries of this list. -/
def twoFree (n : Byte) (l : List Entry) : Prop := ∀ e ∈ l, e.isLocal = true → e.number ≠ n ∧ e.number ≠ n + 1

theorem numberDrawn_next {s : State} (h : ∀ e ∈ s.claims.entries, e.isLocal = true → e.number ≠ s.claims.nextNumber) :
    NumberDrawn s s.claims.nextNumber where
  passed m hm := by simp at hm
  free e he hlocal _ := h e he hlocal

theorem byte_ne_add_one (n : Byte) : n ≠ n + 1 := by
  intro h
  have := congrArg BitVec.toNat h
  rw [BitVec.toNat_add] at this
  have hone : (1 : Byte).toNat = 1 := rfl
  omega

/-- No entry of the table has the identity of a local claim with a number that no local entry has. -/
theorem keys_filter_of_free {s : State} {n : Byte} (hlocal : ∀ e ∈ s.claims.entries, e.origin = s.settings.station → e.isLocal = true)
    (h : ∀ e ∈ s.claims.entries, e.isLocal = true → e.number ≠ n) :
    (s.claims.entries.map Entry.key).filter (fun k => k ≠ (s.settings.station, n)) = s.claims.entries.map Entry.key := by
  refine List.filter_eq_self.2 fun k hk => decide_eq_true fun heq => ?_
  obtain ⟨e, he, rfl⟩ := List.mem_map.1 hk
  obtain ⟨horigin, hnumber⟩ := Prod.ext_iff.1 heq
  exact h e he (hlocal e he horigin) hnumber

/-- An own entry is local. -/
abbrev ownLocal (s : State) : Prop := ∀ e ∈ s.claims.entries, e.origin = s.settings.station → e.isLocal = true

/-- The next number is taken by a validated run in a table with room, in which no own entry has it. -/
theorem sampleEnabled_takesNext {s : State} {c : Fin 4} {v : Byte} (h : Validates s c v) (hd : distinctClaims s)
    (hown : ownLocal s) (hfree : ∀ e ∈ s.claims.entries, e.isLocal = true → e.number ≠ s.claims.nextNumber)
    (hroom : s.claims.entries.length < 16) :
    (sampleEnabled c v s).claims.entries.map Entry.key =
        s.claims.entries.map Entry.key ++ [(s.settings.station, s.claims.nextNumber)]
    ∧ (sampleEnabled c v s).claims.nextNumber = s.claims.nextNumber + 1
    ∧ (sampleEnabled c v s).settings = s.settings
    ∧ (sampleEnabled c v s).cues.channels[c].state = .active
    ∧ (sampleEnabled c v s).cues.channels[c].number = some s.claims.nextNumber
    ∧ (∀ d : Fin 4, d ≠ c → (sampleEnabled c v s).cues.channels[d] = s.cues.channels[d])
    ∧ ∀ e ∈ (sampleEnabled c v s).claims.entries, e.key = (s.settings.station, s.claims.nextNumber) ∧ e.isLocal = true
        ∨ ∃ x ∈ s.claims.entries, e.alike x := by
  obtain ⟨hmade, hcues, hground⟩ := sampleEnabled_creates h hd (numberDrawn_next hfree) (.inl ⟨hroom, rfl⟩)
  obtain ⟨-, -, -, hsettings, -, -⟩ := hground
  have hkeys := hmade.keys
  rw [keys_filter_of_free hown hfree] at hkeys
  have hd' : distinctClaims (sampleEnabled c v s) := by
    rw [distinctClaims_iff, hkeys]
    refine ((distinctClaims_iff s).1 hd).append (List.nodup_singleton _) ?_
    rw [List.disjoint_singleton, List.mem_map]
    rintro ⟨e, he, hkey⟩
    obtain ⟨horigin, hnumber⟩ := Prod.ext_iff.1 hkey
    exact hfree e he (hown e he horigin) hnumber
  refine ⟨hkeys, congrArg ClaimTable.nextNumber hmade.table, hsettings, ?_, ?_, fun d hdc => ?_, fun e he => ?_⟩
  · rw [hcues, withChannel_channel]
  · rw [hcues, withChannel_channel]
  · rw [hcues, withChannel_channel_ne hdc]
  · have hmem : e.key ∈ s.claims.entries.map Entry.key ++ [(s.settings.station, s.claims.nextNumber)] :=
      hkeys ▸ List.mem_map_of_mem he
    rcases List.mem_append.1 hmem with hold | hnew
    · obtain ⟨x, hx, hkey⟩ := List.mem_map.1 hold
      have hne : x.key ≠ (s.settings.station, s.claims.nextNumber) := fun heq => by
        obtain ⟨horigin, hnumber⟩ := Prod.ext_iff.1 heq
        exact hfree x hx (hown x hx horigin) hnumber
      obtain ⟨y, hy, halike⟩ := hmade.others x hx hne
      have hsame : y = e := by
        have := entry_of_mem hd' he
        rw [← hkey, hy] at this
        exact Option.some.inj this
      exact .inr ⟨x, hx, hsame ▸ halike⟩
    · have hkey := List.mem_singleton.1 hnew
      obtain ⟨y, hy, halike, -⟩ := hmade.made
      have hsame : y = e := by
        have := entry_of_mem hd' he
        rw [hkey, hy] at this
        exact Option.some.inj this
      exact .inl ⟨hkey, hsame ▸ congrArg Entry.isLocal halike⟩

theorem Validates.of_channel {s t : State} {c : Fin 4} {v : Byte} (h : Validates s c v) (hsettings : t.settings = s.settings)
    (hchannel : t.cues.channels[c] = s.cues.channels[c]) : Validates t c v := by
  obtain ⟨hstate, hrun, hhigh, habove, hlong, hvalid⟩ := h
  rw [← hchannel] at hstate hrun hhigh hlong hvalid
  rw [← hsettings] at habove hlong hvalid
  exact ⟨hstate, hrun, hhigh, habove, hlong, hvalid⟩

/-- Two runs that are validated one after the other take the next two numbers. -/
theorem sampleEnabled_takesTwo {s : State} {c d : Fin 4} {v w : Byte} (hcd : c ≠ d) (hc : Validates s c v) (hdv : Validates s d w)
    (hd : distinctClaims s) (hown : ownLocal s) (hfree : twoFree s.claims.nextNumber s.claims.entries)
    (hroom : s.claims.entries.length < 15) :
    (sampleEnabled d w (sampleEnabled c v s)).cues.channels[c].state = .active
    ∧ (sampleEnabled d w (sampleEnabled c v s)).cues.channels[c].number = some s.claims.nextNumber
    ∧ (sampleEnabled d w (sampleEnabled c v s)).cues.channels[d].state = .active
    ∧ (sampleEnabled d w (sampleEnabled c v s)).cues.channels[d].number = some (s.claims.nextNumber + 1)
    ∧ (sampleEnabled d w (sampleEnabled c v s)).claims.nextNumber = s.claims.nextNumber + 2
    ∧ (sampleEnabled d w (sampleEnabled c v s)).claims.entries.map Entry.key = s.claims.entries.map Entry.key
        ++ [(s.settings.station, s.claims.nextNumber), (s.settings.station, s.claims.nextNumber + 1)] := by
  obtain ⟨hkeys, hnext, hsettings, hstate, hnumber, hchannels, hmembers⟩ :=
    sampleEnabled_takesNext hc hd hown (fun e he hlocal => (hfree e he hlocal).1) (by omega)
  generalize hT : sampleEnabled c v s = T at hkeys hnext hsettings hstate hnumber hchannels hmembers ⊢
  have hd' : distinctClaims T := by
    rw [distinctClaims_iff, hkeys]
    refine ((distinctClaims_iff s).1 hd).append (List.nodup_singleton _) ?_
    rw [List.disjoint_singleton, List.mem_map]
    rintro ⟨e, he, hkey⟩
    obtain ⟨horigin, hnumber⟩ := Prod.ext_iff.1 hkey
    exact (hfree e he (hown e he horigin)).1 hnumber
  have hown' : ownLocal T := fun e he horigin => by
    rcases hmembers e he with ⟨-, hlocal⟩ | ⟨x, hx, halike⟩
    · exact hlocal
    · have hsame : e.origin = x.origin := (congrArg Entry.origin halike :)
      exact (congrArg Entry.isLocal halike :).trans (hown x hx (by rw [← hsame, horigin, hsettings]))
  have hfree' : ∀ e ∈ T.claims.entries, e.isLocal = true → e.number ≠ T.claims.nextNumber := fun e he hlocal => by
    rw [hnext]
    rcases hmembers e he with ⟨hkey, -⟩ | ⟨x, hx, halike⟩
    · rw [show e.number = s.claims.nextNumber from congrArg Prod.snd hkey]
      exact byte_ne_add_one _
    · have hsame : e.number = x.number := (congrArg Entry.number halike :)
      rw [hsame]
      exact (hfree x hx ((congrArg Entry.isLocal halike :).symm.trans hlocal)).2
  have hlength : T.claims.entries.length < 16 := by
    have := congrArg List.length hkeys
    simp only [List.length_map, List.length_append, List.length_cons, List.length_nil] at this
    omega
  obtain ⟨hkeys', hnext', -, hstate', hnumber', hchannels', -⟩ :=
    sampleEnabled_takesNext (hdv.of_channel hsettings (hchannels d hcd.symm)) hd' hown' hfree' hlength
  refine ⟨?_, ?_, hstate', ?_, ?_, ?_⟩
  · rw [hchannels' c hcd, hstate]
  · rw [hchannels' c hcd, hnumber]
  · rw [hnumber', hnext]
  · rw [hnext', hnext, BitVec.add_assoc]
    rfl
  · rw [hkeys', hkeys, hnext, hsettings, List.append_assoc]
    rfl

/-! ### The statements -/

/-- Settles O18: the claim of one validated run, and the two of one sample in either order of the channels. -/
theorem validatedRunMakesALocalClaim : Obligations.ValidatedRunMakesALocalClaim := by
  refine ⟨fun v0 v1 v2 v3 order c number rest s honly hvalid hd _ hdrawn hplace => ?_, ?_⟩
  · obtain ⟨hmade, hcues, hground⟩ := sampleEnabled_creates (s := samplesTaken v0 v1 v2 v3 s) (c := c)
      (v := sampleOf v0 v1 v2 v3 c) (number := number) (rest := rest) (hvalid.of_channel rfl rfl) hd
      ⟨hdrawn.passed, hdrawn.free⟩ (PlaceMade.congr hplace rfl rfl)
    exact ⟨_, exec_cueSample_only honly, ⟨hmade.made, hmade.keys, hmade.others, hmade.table, hmade.queued, hmade.coalesced,
      hmade.active, hmade.peers⟩, hcues, hground⟩
  · intro v0 v1 v2 v3 c d s hcd hr hdue henabled hc hdv hd hloc n hfree hroom takes
    have hown : ownLocal s := fun e he horigin => by rw [hloc e he]; exact beq_iff_eq.2 horigin
    have htakes {x y : Fin 4} (hxy : x ≠ y) (hx : Validates s x (sampleOf v0 v1 v2 v3 x))
        (hy : Validates s y (sampleOf v0 v1 v2 v3 y)) (henabled : ∀ z : Fin 4, s.settings.sources[z.castSucc].areas ≠ 0 ↔ z = x ∨ z = y)
        {p : Fin 4 → Bool} (hp : ∀ z, p z = false → ¬ (z = x ∨ z = y)) {order : Fin 24}
        (horder : (channelOrder order).filter p = [x, y]) : takes x y order := by
      obtain ⟨hstate, hnumber, hstate', hnumber', hnext, hkeys⟩ := sampleEnabled_takesTwo (s := samplesTaken v0 v1 v2 v3 s) hxy
        (hx.of_channel rfl rfl) (hy.of_channel rfl rfl) hd hown hfree hroom
      have hsamples : sampleAll #v[v0, v1, v2, v3] order (samplesTaken v0 v1 v2 v3 s) =
          sampleEnabled y (sampleOf v0 v1 v2 v3 y) (sampleEnabled x (sampleOf v0 v1 v2 v3 x) (samplesTaken v0 v1 v2 v3 s)) := by
        refine (foldl_sampleChannel_filter (values := #v[v0, v1, v2, v3]) (l := channelOrder order) (p := p)
          (s := samplesTaken v0 v1 v2 v3 s) fun z hz =>
          not_not.1 fun hareas => hp z hz ((henabled z).1 hareas)).trans ?_
        rw [horder]
        show sampleChannel y _ (sampleChannel x _ (samplesTaken v0 v1 v2 v3 s)) = _
        rw [sampleChannel_enabled (c := y) (by rw [sampleChannel_settings]; exact (henabled y).2 (.inr rfl)),
          sampleChannel_enabled (c := x) (s := samplesTaken v0 v1 v2 v3 s) ((henabled x).2 (.inl rfl))]
        rfl
      exact ⟨_, (exec_cueSample hr hdue).trans (congrArg _ hsamples), hstate, hnumber, hstate', hnumber', hnext, hkeys⟩
    have hp (z : Fin 4) (hz : (z == c || z == d) = false) : ¬ (z = c ∨ z = d) := by simpa using hz
    have hq (z : Fin 4) (hz : (z == d || z == c) = false) : ¬ (z = d ∨ z = c) := by simpa using hz
    have henabled' (z : Fin 4) : s.settings.sources[z.castSucc].areas ≠ 0 ↔ z = d ∨ z = c := (henabled z).trans or_comm
    refine ⟨?_, ?_, fun order => ?_⟩
    · obtain ⟨order, horder⟩ := exists_channelOrder c d hcd
      exact ⟨order, htakes hcd hc hdv henabled hp horder⟩
    · obtain ⟨order, horder⟩ := exists_channelOrder d c hcd.symm
      exact ⟨order, htakes hcd.symm hdv hc henabled' hq horder⟩
    · rcases channelOrder_pair c d hcd order with horder | horder
      · exact .inl (htakes hcd hc hdv henabled hp horder)
      · exact .inr (htakes hcd.symm hdv hc henabled' (fun z hz => fun h => hp z hz h.symm) horder)

theorem noPlace.congr {s t : State} (h : noPlace s) (hclaims : t.claims = s.claims) : noPlace t := by
  rwa [noPlace, hclaims]

/-- Settles O19: no place is found in the state in which the request is made, whose table is the table before the sample. -/
theorem refusedRunBlocksTheChannel : Obligations.RefusedRunBlocksTheChannel := by
  intro v0 v1 v2 v3 order c s honly hvalid src ch hfull hall blocked refused
  have hvalid' : Validates (samplesTaken v0 v1 v2 v3 s) c (sampleOf v0 v1 v2 v3 c) := hvalid.of_channel rfl rfl
  have hplace {t : State} (h : t.claims = s.claims) : makeRoom (fun _ => true) t = none :=
    makeRoom_of_noPlace (noPlace.congr ⟨hfull, hall⟩ h)
  have hexec := exec_cueSample_only (v0 := v0) (v1 := v1) (v2 := v2) (v3 := v3) (order := order) honly
  rw [hvalid'.sampleEnabled_eq] at hexec
  constructor
  · intro hrun
    rw [if_neg (by rw [samplesTaken_channel, hrun]; decide), requestClaim_refused (hplace (t := withChannel c _ (samplesTaken v0 v1 v2 v3 s)) rfl),
      updateChannel_eq, postEvent_eq,
      withChannel_withChannel, withChannel_channel] at hexec
    rw [hexec]
    refine congrArg Host.Outcome.next (congrArg (State.setPort · refused) (congrArg (withChannel c · _) ?_))
    exact refused_counted _ _ _ ch
  · intro hidle
    rw [if_pos (by rw [samplesTaken_channel, hidle])] at hexec
    have hact := activeFrom_activity (withChannel c (ch.counted s.clock.stationTime src (sampleOf v0 v1 v2 v3 c))
      (samplesTaken v0 v1 v2 v3 s))
    have hothers := activity_others (withChannel c (ch.counted s.clock.stationTime src (sampleOf v0 v1 v2 v3 c))
      (samplesTaken v0 v1 v2 v3 s))
    have hport : s.tx.queue.length < 8 → _ := activity_port (s := withChannel c
      (ch.counted s.clock.stationTime src (sampleOf v0 v1 v2 v3 c)) (samplesTaken v0 v1 v2 v3 s))
    replace hexec : exec (.cueSample v0 v1 v2 v3 order) s = .next (requestClaim c (activity (withChannel c
      (ch.counted s.clock.stationTime src (sampleOf v0 v1 v2 v3 c)) (samplesTaken v0 v1 v2 v3 s)))) := hexec
    generalize activity _ = u at hexec hact hothers hport
    have hclock : u.clock.stationTime = s.clock.stationTime := (congrArg Clock.stationTime hact.clock :)
    rw [requestClaim_refused (hplace hact.claims), postEvent_eq] at hexec
    refine ⟨_, hexec, ?_, hact.claims, hact.selector, hact.peers, hact.cells, hact.presence, fun hroom => ?_, fun f hf hnot => ?_,
      hact.ground⟩
    · show (updateChannel c (Channel.refused u.clock.stationTime) u).cues = blocked.cues
      rw [updateChannel_cues_eq hact.cues, updateChannel_eq, withChannel_channel, hclock, withChannel_withChannel]
      exact congrArg (fun x => (withChannel c x (samplesTaken v0 v1 v2 v3 s)).cues) (refused_counted _ _ _ ch)
    · show portWith _ u.port = refused
      rw [hport hroom, hact.settings]
      show portWith ⟨_, u.clock.stationTime, _, _, _⟩ _ = _
      rw [hclock]
      rfl
    · have hmem : f ∈ otherFrames u.tx.queue := mem_otherFrames.2 ⟨hf, hnot⟩
      rw [hothers] at hmem
      exact (mem_otherFrames.1 hmem).1

/-! ### The manual cue -/

theorem manualStart_busy {s : State} (h : s.cues.manual = .active) : manualStart s = answer .busy s := by
  unfold manualStart
  rw [h]

theorem manualStart_noAreas {s : State} (h : s.cues.manual = .idle) (hareas : s.settings.sources[(4 : Fin 5)].areas = 0) :
    manualStart s = answer .refused s := by
  unfold manualStart
  rw [h]
  exact if_pos hareas

theorem manualStart_noPlace {s : State} (h : s.cues.manual = .idle) (hmake : makeRoom (fun _ => true) s = none) :
    manualStart s = answer .refused s := by
  unfold manualStart
  rw [h, createLocal_eq_none hmake]
  exact ite_self _

theorem manualStart_made {s t : State} (h : s.cues.manual = .idle) (hareas : s.settings.sources[(4 : Fin 5)].areas ≠ 0)
    (hmake : makeRoom (fun _ => true) s = some t) : manualStart s = answer .accepted ((localMade 4 t).setCues
      { (localMade 4 t).cues with manual := .active, manualNumber := some (drawnNumber t) }) := by
  unfold manualStart
  rw [h, createLocal_eq hmake]
  exact if_neg hareas

/-- Without a claim a manual cue start answers, and nothing else. -/
theorem manualStart_unmade {s : State} (h : s.cues.manual = .active ∨ s.settings.sources[(4 : Fin 5)].areas = 0 ∨ noPlace s) :
    manualStart s = answer (if s.cues.manual = .active then .busy else .refused) s := by
  cases hmanual : s.cues.manual with
  | active => rw [if_pos rfl, manualStart_busy hmanual]
  | idle =>
    rw [if_neg (by decide)]
    rcases h with hactive | hareas | hplace
    · rw [hmanual] at hactive
      cases hactive
    · exact manualStart_noAreas hmanual hareas
    · exact manualStart_noPlace hmanual (makeRoom_of_noPlace hplace)

/-- Settles O21: the activity of the command comes first, and changes nothing that the request looks at. -/
theorem manualCueStarts : Obligations.ManualCueStarts := by
  refine ⟨fun s hopen hcase => ?_, fun number rest s hopen hidle hareas hd _ hdrawn hplace => ?_⟩
  · have hact := activeFrom_activity s
    have hstart : manualCue 0x01 s = answer (if s.cues.manual = .active then .busy else .refused) (activity s) := by
      rw [manualCue_start, manualStart_unmade, hact.cues]
      rw [hact.cues, hact.settings]
      exact hcase.imp_right (·.imp_right (noPlace.congr · hact.claims))
    refine ⟨_, (atRunningPort_eq hopen).trans (congrArg _ hstart), ?_, fun r hr hkind => ?_, fun hroom => ?_, fun f hf hnot => ?_,
      hact.presence, sameGround_answer _ hact.ground, hact.claims, hact.selector, hact.cues, hact.peers, hact.cells⟩
    · show [Reply.code _] = _
      split <;> rfl
    · rcases activity_events hr with h | h
      · exact h
      · rw [hkind] at h
        cases h
    · show (activity s).port.events = s.port.events
      rw [activity_port hroom]
    · have hmem : f ∈ otherFrames (activity s).tx.queue := mem_otherFrames.2 ⟨hf, hnot⟩
      rw [activity_others] at hmem
      exact (mem_otherFrames.1 hmem).1
  · have hact := activeFrom_activity s
    have hsame := sameForClaim_activity s
    obtain ⟨hnumber, hmade⟩ := localClaimMade (c := 4) hsame hd hdrawn hplace
    have hroom := (PlaceMade.congr hplace hsame.claims (congrArg Clock.stationTime hsame.clock)).makeRoom_eq
      (hd := by rwa [distinctClaims, hsame.claims])
    have hstart : manualCue 0x01 s = answer .accepted ((localMade 4 (setEntries rest (activity s))).setCues
        { (localMade 4 (setEntries rest (activity s))).cues with manual := .active, manualNumber := some number }) := by
      rw [manualCue_start, manualStart_made (by rw [hact.cues, hidle]) (by rw [hact.settings]; exact hareas) hroom, hnumber]
    have hmade' := hmade.setCues { (localMade 4 (setEntries rest (activity s))).cues with
      manual := .active, manualNumber := some number }
    refine ⟨_, (atRunningPort_eq hopen).trans (congrArg _ hstart), rfl, ⟨hmade'.made, hmade'.keys, hmade'.others, hmade'.table,
      hmade'.queued, hmade'.coalesced, hmade'.active, hmade'.peers⟩, ?_, ?_⟩
    · show { (localMade 4 (setEntries rest (activity s))).cues with manual := .active, manualNumber := some number } = _
      rw [localMade_cues]
      exact congrArg (fun x : CueFrontEnd => { x with manual := .active, manualNumber := some number }) hact.cues
    · exact sameGround_answer _ (sameGround_trans hact.ground (sameGround_localMade 4 (setEntries rest (activity s))))

end Sys2Proof.Machine
end
section
/-! The bits of the cell stream and the Reference Monitor (R153, R157, R162 to R168). -/

namespace Sys2Proof.Machine

/-! ### The bit boundary -/

theorem bitBoundary_eq {s : State} (h : s.cells.boundaryDue = false) : bitBoundary s = s.setCells (nextBit s.cells) := by
  unfold bitBoundary nextBit
  rw [if_neg (by simp [h])]
  cases hbit : s.cells.bit with
  | none => simp [midBit, hbit]
  | some i => by_cases hi : i < 39 <;> simp [midBit, hbit, hi]

theorem onBackup_iff (s : State) : s.onBackup = true ↔ s.reference.state ≠ .locked := by
  rw [State.onBackup, bne_iff_ne]

theorem exec_bitBoundary {s : State} (h : s.loader.resetHeld = false) :
    exec .bitBoundary s = .next (if s.onBackup then bitBoundary s else s) := unlessHeld_eq h

theorem exec_referenceEdge {s : State} (h : s.loader.resetHeld = false) : exec .referenceEdge s = .next (referenceEdge s) :=
  unlessHeld_eq h

theorem exec_referenceGap {s : State} (h : s.loader.resetHeld = false) : exec .referenceGap s = .next (referenceGap s) :=
  unlessHeld_eq h

theorem exec_cellBegin {s : State} (h : s.loader.resetHeld = false) : exec .cellBegin s = .next (cellBoundary s) := unlessHeld_eq h

/-! ### The edges of the reference -/

theorem phase_of_edge : ∀ p : Fin 4, (p + 1 = 0 ↔ p = 3) ∧ (p + 1 = 2 ↔ p = 1) := by decide

/-- An edge in LOCKED, no switch waiting for it, by the phase count it makes. -/
theorem referenceEdge_locked {s : State} (h : s.reference.state = .locked) (hawait : s.reference.awaitingEdge = false) :
    referenceEdge s =
      let counted := s.setReference { s.reference with gapTimer := 0, present := true, phaseCount := s.reference.phaseCount + 1 }
      if s.reference.phaseCount = 3 then bitBoundary counted else if s.reference.phaseCount = 1 then midBit counted else counted := by
  obtain ⟨hzero, htwo⟩ := phase_of_edge s.reference.phaseCount
  simp [referenceEdge, h, hawait, hzero, htwo]

theorem referenceEdge_awaited {s : State} (h : s.reference.state = .locked) (hawait : s.reference.awaitingEdge = true) :
    referenceEdge s =
      (s.setReference { s.reference with gapTimer := 0, present := true, phaseCount := 0, awaitingEdge := false }).setCells
        { s.cells with boundaryDue := true } := by
  simp [referenceEdge, h, hawait, endAwait]

theorem referenceEdge_lost {s : State} (h : s.reference.state = .lost) : referenceEdge s = s.setReference
    { s.reference with state := .returning, gapTimer := 0, present := true, stableTimer := 0, returnDue := false,
                       releaseMark := false } := by
  simp [referenceEdge, h]

theorem referenceEdge_returning {s : State} (h : s.reference.state = .returning ∨ s.reference.state = .lostHeld) :
    referenceEdge s = s.setReference { s.reference with gapTimer := 0, present := true } := by
  rcases h with h | h <;> simp [referenceEdge, h]

/-- Settles O53. -/
theorem bitsFollowAtTheBoundaries : Obligations.BitsFollowAtTheBoundaries := by
  refine fun s hheld hdue => ⟨fun hstate => ?_, fun hstate => ?_, fun hstate hawait hphase => ?_, fun hstate hawait hphase => ?_⟩
  · rw [exec_bitBoundary hheld, if_pos ((onBackup_iff s).2 hstate), bitBoundary_eq hdue]
  · rw [exec_bitBoundary hheld, if_neg fun h => (onBackup_iff s).1 h hstate]
  · rw [exec_referenceEdge hheld, referenceEdge_locked hstate hawait]
    by_cases hmiddle : s.reference.phaseCount = 1
    · simp [hmiddle, midBit]
    · simp only [if_neg hphase, if_neg hmiddle]
      rfl
  · rw [exec_referenceEdge hheld, referenceEdge_locked hstate hawait]
    dsimp only
    rw [if_pos hphase, hphase, bitBoundary_eq (by exact hdue)]
    rfl

/-! ### Gaps, the return and the switch -/

theorem referenceGap_locked {s : State} (h : s.reference.state = .locked) : referenceGap s = loseReference
    (s.setReference { s.reference with gapTimer := 5, present := false }) := by
  simp [referenceGap, h, Config.gapMilliseconds]

theorem referenceGap_returning {s : State} (h : s.reference.state = .returning) : referenceGap s = s.setReference
    { s.reference with state := .lost, gapTimer := 5, present := false, stableTimer := 0, returnDue := false,
                       releaseMark := false } := by
  simp [referenceGap, h, Config.gapMilliseconds]

theorem referenceGap_lost {s : State} (h : s.reference.state = .lostHeld ∨ s.reference.state = .lost) :
    referenceGap s = s.setReference { s.reference with gapTimer := 5, present := false } := by
  rcases h with h | h <;> simp [referenceGap, h, Config.gapMilliseconds]

theorem loseReference_eq (s : State) : loseReference s =
    let lost := (s.setReference { s.reference with state := .lost, backupSeconds := 0 }).setPort
      (portWith ⟨.referenceLost, s.clock.stationTime, BitVec.ofNat 8 s.cells.position.val, BitVec.ofNat 8 s.cells.burst, 0⟩ s.port)
    if s.reference.awaitingEdge then endAwait lost else bitBoundary lost := by
  rw [loseReference, postEvent_eq]
  rfl

theorem exec_returnComplete {s : State} (h : s.loader.resetHeld = false) (hstate : s.reference.state = .returning)
    (hdue : s.reference.returnDue = false) : exec .returnComplete s = .next (s.setReference
      (if s.settings.autoReturn || s.reference.releaseMark then { s.reference with stableTimer := 2000, returnDue := true }
       else { s.reference with stableTimer := 2000, state := .lostHeld })) := by
  refine (unlessHeld_eq h).trans (congrArg _ ?_)
  rw [returnComplete, if_pos ⟨hstate, hdue⟩]
  by_cases hreturn : (s.settings.autoReturn || s.reference.releaseMark) = true
  · exact (if_pos hreturn).trans (congrArg _ (if_pos hreturn).symm)
  · exact (if_neg hreturn).trans (congrArg _ (if_neg hreturn).symm)

/-- Settles O54. -/
theorem referenceIsLostAndReturns : Obligations.ReferenceIsLostAndReturns := by
  refine ⟨fun s hheld => ⟨?_, fun hstate => ?_, fun hstate => ?_⟩,
    fun s hheld => ⟨fun hstate => ?_, fun hstate => ?_, fun hstate hdue hreturn => ?_, fun hstate hdue hauto hrelease => ?_⟩⟩
  · intro hstate reference port lost
    refine ⟨fun hawait hdue => ?_, fun hawait => ?_⟩ <;>
      show exec .referenceGap s = _ <;>
      rw [exec_referenceGap hheld, referenceGap_locked hstate, loseReference_eq] <;>
      dsimp only
    · rw [if_neg (by simp [hawait]), bitBoundary_eq (by exact hdue)]
      simp only [reference, ← hawait]
      rfl
    · rw [if_pos (by simp [hawait])]
      rfl
  · rw [exec_referenceGap hheld, referenceGap_returning hstate]
  · rw [exec_referenceGap hheld, referenceGap_lost hstate]
  · rw [exec_referenceEdge hheld, referenceEdge_lost hstate]
  · rw [exec_referenceEdge hheld, referenceEdge_returning hstate]
  · rw [exec_returnComplete hheld hstate hdue, if_pos (by simpa using hreturn)]
  · rw [exec_returnComplete hheld hstate hdue, if_neg (by simp [hauto, hrelease])]

theorem cellBoundary_switch {s : State} (hdue : s.cells.boundaryDue = true)
    (hreturn : s.reference.state = .returning ∧ s.reference.returnDue = true) : cellBoundary s = switchToReference s := by
  rw [cellBoundary, if_pos hdue, if_pos hreturn]

theorem cellBoundary_begin {s : State} (hdue : s.cells.boundaryDue = true)
    (hreturn : ¬ (s.reference.state = .returning ∧ s.reference.returnDue = true)) : cellBoundary s = beginCell s := by
  rw [cellBoundary, if_pos hdue, if_neg hreturn]

theorem switchToReference_eq (s : State) : switchToReference s = ((s.setReference
    { s.reference with state := .locked, returnDue := false, releaseMark := false, stableTimer := 0, awaitingEdge := true }).setCells
      { s.cells with boundaryDue := false, bitClock := false }).setPort
      (portWith ⟨.referenceBack, s.clock.stationTime, hiByte (BitVec.ofNat 16 s.reference.backupSeconds),
        loByte (BitVec.ofNat 16 s.reference.backupSeconds), if s.reference.releaseMark then 1 else 0⟩ s.port) := by
  rw [switchToReference]
  dsimp only
  rw [postEvent_eq]
  rfl

/-- Settles O55. -/
theorem switchAtTheCellBoundary : Obligations.SwitchAtTheCellBoundary := by
  intro s hheld hdue hstate hreturn hroom seconds switched
  have hswitch : switchToReference s = switched := by
    rw [switchToReference_eq, portWith_of_room hroom]
  refine ⟨?_, ?_⟩
  · rw [exec_cellBegin hheld, cellBoundary_switch hdue ⟨hstate, hreturn⟩, hswitch]
  · rw [exec_referenceEdge (s := switched) hheld, referenceEdge_awaited (s := switched) rfl rfl]

end Sys2Proof.Machine
end
section
/-! The cells and the cycle start (R146, R148, R149, R153 to R162). -/

namespace Sys2Proof.Machine

/-! ### The contents of a cell -/

theorem cellHeader_ofNat : ∀ (type : Fin 16) (n : Fin 16),
    cellHeader (BitVec.ofNat 4 type.val) (BitVec.ofNat 4 n.val) = BitVec.ofNat 8 (16 * type.val + n.val) := by decide

theorem onAirEntry_of_slotHolds {shown : Option Entry} {s : State} (h : slotHolds shown s) : s.onAirEntry = shown := by
  obtain ⟨hslot, hentry⟩ := h
  unfold State.onAirEntry
  rw [hslot]
  cases shown with
  | none => rfl
  | some e => exact (hentry e rfl).1

theorem ClaimClass.rank_le (c : ClaimClass) : c.rank ≤ 3 := by cases c <;> decide

/-- R154: the STATE cell is the one that the ON_AIR entry gives. -/
theorem stateCell_of_slotHolds {shown : Option Entry} {s : State} (h : slotHolds shown s) :
    stateCell s = stateCellWith shown s := by
  have hentry := onAirEntry_of_slotHolds h
  have hheader : cellHeader 1 (stateSlot s) = BitVec.ofNat 8 (0x10 + (shown.elim 0 fun e => 8 + 2 * e.cls.rank)
      + if s.waitingFlag then 1 else 0) := by
    have hslot : stateSlot s = BitVec.ofNat 4 ((shown.elim 0 fun e => 8 + 2 * e.cls.rank) + if s.waitingFlag then 1 else 0) := by
      unfold stateSlot
      rw [hentry]
      cases shown <;> simp
    have hlt : (shown.elim 0 fun e => 8 + 2 * e.cls.rank) + (if s.waitingFlag then 1 else 0) < 16 := by
      cases shown with
      | none => simp only [Option.elim_none]; split <;> omega
      | some e =>
        have := e.cls.rank_le
        simp only [Option.elim_some]
        split <;> omega
    rw [hslot]
    refine (cellHeader_ofNat 1 ⟨_, hlt⟩).trans ?_
    simp only [Nat.add_assoc]
    rfl
  have hsecond : stateByte2 s = BitVec.ofNat 8 ((if s.reference.state = .locked then 0 else 128)
      + shown.elim 0 fun e => e.label.toNat) := by
    unfold stateByte2
    rw [hentry]
    by_cases hlocked : s.reference.state = .locked
    · rw [if_neg fun h => (onBackup_iff s).1 h hlocked, if_pos hlocked]
      cases shown <;> rfl
    · rw [if_pos ((onBackup_iff s).2 hlocked), if_neg hlocked]
      cases shown <;> rfl
  rw [stateCell, hheader, hsecond]
  rfl

theorem stateCell_congr {s t : State} (hclaims : t.claims = s.claims) (hselector : t.selector = s.selector)
    (hsettings : t.settings = s.settings) (hreference : t.reference = s.reference) : stateCell t = stateCell s := by
  have hentry : t.onAirEntry = s.onAirEntry := by simp only [State.onAirEntry, State.entry, hclaims, hselector]
  have hwaiting : t.waitingFlag = s.waitingFlag := by rw [State.waitingFlag, State.waitingFlag, hclaims]
  have hbackup : t.onBackup = s.onBackup := by rw [State.onBackup, State.onBackup, hreference]
  have hslot : stateSlot t = stateSlot s := by
    unfold stateSlot
    rw [hentry, hwaiting]
  have hsecond : stateByte2 t = stateByte2 s := by
    unfold stateByte2
    rw [hentry, hbackup]
  rw [stateCell, stateCell, hslot, hsecond, hsettings, hselector]

theorem fillCell_eq : fillCell = 0xF000000003 := by
  have h1 : crc8Byte 0x00 0xF0 = 0xDE := by decide
  have h2 : crc8Byte 0xDE 0x00 = 0x14 := by decide
  have h3 : crc8Byte 0x14 0x00 = 0x6C := by decide
  have h4 : crc8Byte 0x6C 0x00 = 0x03 := by decide
  have hcrc : crc8 [0xF0, 0, 0, 0] = 0x03 := by simp only [crc8, List.foldl_cons, List.foldl_nil, h1, h2, h3, h4]
  refine (congrArg ((0xF0 : Byte) ++ (0 : Byte) ++ (0 : Byte) ++ (0 : Byte) ++ ·) hcrc).trans ?_
  decide

theorem charAt_eq (t : Text) {i : Nat} (h : i < 12) : charAt t i = byteAt t.toList i := by
  have hlt : i < t.toList.length := by simpa using h
  rw [charAt, byteAt, List.getD_eq_getElem _ _ hlt, List.getD_eq_getElem _ _ hlt]

/-- R155: the NAME cell of a group. -/
theorem nameCell_eq (g : Fin 4) (t : Text) : nameCell g.val t =
    (0x20 + BitVec.ofNat 8 g.val) ++ byteAt t.toList (3 * g.val) ++ byteAt t.toList (3 * g.val + 1) ++ byteAt t.toList (3 * g.val + 2)
      ++ crc8 [0x20 + BitVec.ofNat 8 g.val, byteAt t.toList (3 * g.val), byteAt t.toList (3 * g.val + 1),
        byteAt t.toList (3 * g.val + 2)] := by
  have hheader : cellHeader 2 (BitVec.ofNat 4 g.val) = 0x20 + BitVec.ofNat 8 g.val := by
    revert g
    decide
  rw [nameCell, hheader, charAt_eq t (by omega), charAt_eq t (by omega), charAt_eq t (by omega)]
  rfl

/-- The carousel positions of the NAME cells, and what follows each. -/
theorem namePosition_next : ∀ g : Fin 4, (#v[1, 2, 4, 5] : Vector (Fin 6) 4)[g] ≠ 0 ∧
    (#v[1, 2, 4, 5] : Vector (Fin 6) 4)[g] + 1 = (#v[2, 3, 5, 0] : Vector (Fin 6) 4)[g] := by decide

theorem carouselCell_name (s : State) (g : Fin 4) :
    carouselCell s (#v[1, 2, 4, 5] : Vector (Fin 6) 4)[g] = nameCell g.val s.cells.displayText := by
  fin_cases g <;> rfl

/-! ### The cell that begins -/

theorem beginCell_fill {s : State} (h : s.running = false ∨ s.cells.bit = none) : beginCell s = putCell fillCell s := by
  rw [beginCell, if_neg]
  rcases h with h | h <;> simp [h]

theorem beginCell_running {s : State} (hr : s.running = true) (hbit : s.cells.bit ≠ none) : beginCell s = nextRunningCell s := by
  rw [beginCell, if_pos]
  simpa [hr, Option.isSome_iff_ne_none] using hbit

theorem nextRunningCell_burst {s : State} (h : s.cells.burst ≠ 0) : nextRunningCell s =
    putCell (stateCell s) (s.setCells { s.cells with burst := s.cells.burst - 1 }) := if_pos h

theorem nextRunningCell_carousel {s : State} (h : s.cells.burst = 0) (hpos : s.cells.position ≠ 0) : nextRunningCell s =
    putCell (carouselCell s s.cells.position) (s.setCells { s.cells with position := s.cells.position + 1 }) := by
  rw [nextRunningCell, if_neg (not_not.2 h)]
  simp only [if_neg hpos]

theorem nextRunningCell_cycle {s : State} (h : s.cells.burst = 0) (hpos : s.cells.position = 0) : nextRunningCell s =
    putCell (carouselCell (cycleStart s) (cycleStart s).cells.position)
      ((cycleStart s).setCells { (cycleStart s).cells with position := (cycleStart s).cells.position + 1 }) := by
  rw [nextRunningCell, if_neg (not_not.2 h)]
  simp only [if_pos hpos]

theorem exec_cellBegin_running {s : State} (hr : s.running = true) (hbit : s.cells.bit ≠ none) (hdue : s.cells.boundaryDue = true)
    (hreturn : ¬ (s.reference.state = .returning ∧ s.reference.returnDue = true)) :
    exec .cellBegin s = .next (nextRunningCell s) := by
  rw [exec_cellBegin (free_of_running hr), cellBoundary_begin hdue hreturn, beginCell_running hr hbit]

/-- Settles O51. -/
theorem cellsCarryTheirContents : Obligations.CellsCarryTheirContents := by
  refine ⟨fun s hheld hfill hdue hreturn => ?_, ?_, ?_⟩
  · have hcase : s.running = false ∨ s.cells.bit = none :=
      hfill.imp_left fun hrun => Bool.eq_false_iff.2 fun hr => hrun (runState_of_running hr)
    rw [exec_cellBegin hheld, cellBoundary_begin hdue hreturn, beginCell_fill hcase, fillCell_eq]
    rfl
  · intro shown s hr hbit hdue hreturn hslot cell begun
    have hcell : stateCell s = cell := stateCell_of_slotHolds hslot
    refine ⟨fun hburst => ?_, fun hburst hpos => ?_⟩
    · rw [exec_cellBegin_running hr hbit hdue hreturn, nextRunningCell_burst hburst, hcell]
      rfl
    · rw [exec_cellBegin_running hr hbit hdue hreturn, nextRunningCell_carousel hburst (by rw [hpos]; decide), hpos]
      show Host.Outcome.next (putCell (stateCell s) _) = _
      rw [hcell]
      rfl
  · intro g s hr hbit hdue hburst hreturn hpos header x cell
    obtain ⟨hnonzero, hnext⟩ := namePosition_next g
    have hcell := carouselCell_name s g
    rw [← hpos] at hnonzero hnext hcell
    rw [exec_cellBegin_running hr hbit hdue hreturn, nextRunningCell_carousel hburst hnonzero, hcell, hnext, nameCell_eq]
    rfl

/-! ### The cycle start -/

/-- The name that a cycle start applies. -/
def appliedName (names : NameStore) : NameRecord :=
  match names.pendingName with
  | some n => n
  | none => names.applied

theorem applyName_none {s : State} (h : s.names.pendingName = none) : applyName s = s := by
  unfold applyName
  rw [h]

theorem applyName_some {s : State} {n : NameRecord} (h : s.names.pendingName = some n) : applyName s =
    activity ((s.setNames { s.names with applied := n, pendingName := none, repeatTimer := 0 }).setPort
      (portWith ⟨.nameApplied, s.clock.stationTime, n.origin, hiByte n.version, loByte n.version⟩ s.port)) := by
  unfold applyName
  rw [h]
  show activity (postEvent _ _ _ _ _) = _
  rw [postEvent_eq]
  rfl

/-- What the application of a name leaves as it was. -/
structure NameApplied (s t : State) : Prop where
  claims : t.claims = s.claims
  selector : t.selector = s.selector
  settings : t.settings = s.settings
  reference : t.reference = s.reference
  cues : t.cues = s.cues
  peers : t.peers = s.peers
  cells : t.cells = s.cells
  applied : t.names.applied = appliedName s.names
  labels : t.names.labels = s.names.labels
  labelSwap : t.names.labelSwap = s.names.labelSwap

theorem nameApplied (s : State) : NameApplied s (applyName s) := by
  cases h : s.names.pendingName with
  | none =>
    rw [applyName_none h]
    refine ⟨rfl, rfl, rfl, rfl, rfl, rfl, rfl, ?_, rfl, rfl⟩
    rw [appliedName, h]
  | some n =>
    rw [applyName_some h]
    have hact := activeFrom_activity ((s.setNames { s.names with applied := n, pendingName := none, repeatTimer := 0 }).setPort
      (portWith ⟨.nameApplied, s.clock.stationTime, n.origin, hiByte n.version, loByte n.version⟩ s.port))
    obtain ⟨-, -, -, hsettings, hnames, hreference⟩ := hact.ground
    refine ⟨hact.claims, hact.selector, hsettings, hreference, hact.cues, hact.peers, hact.cells, ?_,
      (congrArg NameStore.labels hnames :), (congrArg NameStore.labelSwap hnames :)⟩
    rw [appliedName, h]
    exact congrArg NameStore.applied hnames

/-- R149: the display text of the cycle, by what is on air. -/
theorem chooseText_plain {s : State} (h : s.names.labelSwap = false ∨ s.selector.onAir = none) :
    chooseText s = s.names.applied.text := by
  unfold chooseText State.onAirEntry
  rcases h with h | h
  · split
    · rfl
    · exact if_neg fun hswap => absurd (h.symm.trans hswap.1) (by decide)
  · rw [h]

theorem chooseText_label {s : State} {e : Entry} (hair : s.selector.onAir = some e.key) (he : s.entry e.key = some e) :
    chooseText s = if s.names.labelSwap = true ∧ e.label ≠ 0 then s.names.labels.toList.getD (e.label.toNat - 1) s.names.applied.text
      else s.names.applied.text := by
  unfold chooseText State.onAirEntry
  rw [hair]
  dsimp only
  rw [he]

/-- Settles O52: the STATE cell of the cycle start sees the table as it was, since a name that is applied leaves it. -/
theorem cycleStartAppliesTheName : Obligations.CycleStartAppliesTheName := by
  intro s hr hbit hdue hburst hpos hreturn hevents hqueue applied
  have happlied := nameApplied s
  have hcells : (cycleStart s).cells = { s.cells with displayText := chooseText (applyName s) } :=
    congrArg (fun c : CellGenerator => { c with displayText := chooseText (applyName s) }) happlied.cells
  have hposition : (cycleStart s).cells.position = 0 := (congrArg CellGenerator.position hcells).trans hpos
  have hcell : stateCell (cycleStart s) = stateCell s :=
    stateCell_congr happlied.claims happlied.selector happlied.settings happlied.reference
  have hexec : exec .cellBegin s = .next (putCell (stateCell s)
      ((cycleStart s).setCells { (cycleStart s).cells with position := 1 })) := by
    rw [exec_cellBegin_running hr hbit hdue hreturn, nextRunningCell_cycle hburst hpos, hposition]
    show Host.Outcome.next (putCell (stateCell (cycleStart s)) _) = _
    rw [hcell]
    rfl
  have hentry (k : Byte × Byte) : (applyName s).entry k = s.entry k := entry_congr (by rw [happlied.claims]) k
  refine ⟨_, hexec, rfl, rfl, (congrArg CellGenerator.burst hcells).trans hburst, rfl, rfl, fun shown hslot => ?_,
    fun n hn => ?_, fun hnone => ?_, fun hplain => ?_, fun e i hswap hair he hlabel => ?_, fun e hair he hlabel => ?_,
    happlied.claims, happlied.selector, happlied.cues, happlied.peers, happlied.reference⟩
  · rw [← stateCell_of_slotHolds hslot]
    exact ⟨rfl, rfl⟩
  · show (applyName s).names = _ ∧ (applyName s).port.events = _ ∧ (applyName s).presence = _
    rw [applyName_some hn]
    refine ⟨?_, ?_, activity_spec _⟩
    · simp
    · rw [activity_port (by exact hqueue)]
      exact congrArg SitePort.events (portWith_of_room hevents)
  · show (applyName s).names = _ ∧ (applyName s).port = _ ∧ (applyName s).presence = _ ∧ (applyName s).tx = _
    rw [applyName_none hnone]
    exact ⟨rfl, rfl, rfl, rfl⟩
  · show chooseText (applyName s) = applied.text
    rw [chooseText_plain (by rwa [happlied.labelSwap, happlied.selector]), happlied.applied]
    rfl
  · show chooseText (applyName s) = s.names.labels[i]
    have hne : e.label ≠ 0 := fun h => by rw [h] at hlabel; exact absurd hlabel (by simp)
    rw [chooseText_label (by rw [happlied.selector, hair]) ((hentry _).trans he), happlied.labelSwap,
      if_pos ⟨hswap, hne⟩, happlied.labels, hlabel, Nat.add_sub_cancel, List.getD_eq_getElem _ _ (by simp)]
    simp
  · show chooseText (applyName s) = applied.text
    rw [chooseText_label (by rw [happlied.selector, hair]) ((hentry _).trans he), if_neg fun h => h.2 hlabel, happlied.applied]
    rfl

end Sys2Proof.Machine
end
section
/-! The start of an attempt (R115, R117), the Presence Scheduler (R133 to R137) and the names of the own station (R145, R146). -/

namespace Sys2Proof.Machine

/-! ### The start of an attempt -/

theorem lineKept_of_running {s : State} (h : s.running = true) : s.lineKept = true := by
  rw [State.lineKept, runState_of_running h]
  rfl

theorem setLine_of_running {l : LineState} {s : State} (h : s.running = true) : setLine l s = s.setRx { s.rx with line := l } := by
  rw [setLine, if_pos (lineKept_of_running h)]

theorem exec_backoffSlot {s : State} (h : s.running = true) : exec .backoffSlot s = .next (countSlot s) := whenRunning_eq h

theorem exec_backoffExpiry {s : State} (h : s.running = true) :
    exec .backoffExpiry s = .next (if attemptDue s then beginAttempt s else s) := whenRunning_eq h

theorem beginAttempt_eq {s : State} {f : Frame} {q : List Frame} (hr : s.running = true) (hq : s.tx.queue = f :: q) :
    beginAttempt s = (s.setTx
      { s.tx with
        queue := { f with inTransmission := true } :: q, driverEnable := true,
        sending := some ⟨f.characters, 0, false⟩ }).setRx { s.rx with line := .busy } := by
  unfold beginAttempt
  rw [hq]
  exact setLine_of_running (by exact hr)

/-- Settles O45. -/
theorem backoffCountsAndTheHeadIsSent : Obligations.BackoffCountsAndTheHeadIsSent := by
  refine fun f q n s hr hq hn hsending => ⟨fun hline => ?_, fun hline => ⟨?_, ?_⟩, fun hline hpos => ?_, fun hline hzero => ?_⟩
  · rw [exec_backoffSlot hr, countSlot, if_pos ⟨hline, hsending⟩, hn]
    rfl
  · rw [exec_backoffSlot hr, countSlot, if_neg (by simp [hline])]
  · rw [exec_backoffExpiry hr, if_neg (by simp [attemptDue, hline])]
  · rw [exec_backoffExpiry hr, if_neg]
    simp only [attemptDue, hline, hsending, hn]
    simp
    omega
  · rw [exec_backoffExpiry hr, if_pos (by simp [attemptDue, hline, hsending, hn, hzero, hq]), beginAttempt_eq hr hq]

/-! ### A PRESENCE that is offered -/

theorem find_presence_none {q : List Frame} (h : ∀ f ∈ q, f.isPresence = false) : q.find? Frame.isPresence = none :=
  List.find?_eq_none.2 fun f hf => by simp [h f hf]

theorem offer_presence_new {level : QuietLevel} {fp : Half} {s : State} (h : ∀ f ∈ s.tx.queue, f.isPresence = false) :
    offer (.presence level fp) s = offerFrame (ownFrame s (.presence level fp)) s := by
  unfold offer
  dsimp only
  rw [find_presence_none h]

/-- A PRESENCE where one is held: written into the one that waits, or marked for renewal. -/
theorem offer_presence_held {level : QuietLevel} {fp : Half} {s : State} {before after : List Frame} {f : Frame}
    (hq : s.tx.queue = before ++ f :: after) (hf : f.isPresence = true) (hothers : ∀ g ∈ before ++ after, g.isPresence = false) :
    offer (.presence level fp) s = if f.inTransmission then s.setTx { s.tx with renewal := true }
      else s.setTx { s.tx with queue := before ++ { f with body := .presence level fp } :: after } := by
  have hfind : s.tx.queue.find? Frame.isPresence = some f := by
    rw [hq, List.find?_append, find_presence_none fun g hg => hothers g (List.mem_append_left _ hg), List.find?_cons_of_pos hf]
    rfl
  have hkeep {l : List Frame} (h : ∀ g ∈ l, g.isPresence = false) :
      (l.map fun g => if g.isPresence then { g with body := .presence level fp } else g) = l :=
    List.map_congr_left (g := id) (fun g hg => by simp [h g hg]) |>.trans (List.map_id l)
  have hmap : (s.tx.queue.map fun g => if g.isPresence then { g with body := .presence level fp } else g) =
      before ++ { f with body := .presence level fp } :: after := by
    rw [hq, List.map_append, List.map_cons, if_pos hf, hkeep fun g hg => hothers g (List.mem_append_left _ hg),
      hkeep fun g hg => hothers g (List.mem_append_right _ hg)]
  unfold offer
  dsimp only
  rw [hfind]
  dsimp only
  rw [hmap]
  rfl

theorem offerPresence_eq (s : State) : offerPresence s =
    offer (.presence s.presence.level s.settings.fingerprint) (s.setPresence { s.presence with presenceTimer := 0 }) := rfl

theorem sameGround_offer (b : FrameBody) (s : State) : sameGround s (offer b s) := by
  unfold sameGround
  simp

/-- A frame that is placed in a queue with room. -/
theorem offerFrame_queue_of_room {f : Frame} {s : State} (h : s.tx.queue.length < 8) :
    (offerFrame f s).tx.queue = insertFrame f s.tx.queue := by
  rw [offerFrame_room f s h]
  exact (placeFrame_spec f s).1

theorem offerFrame_rx_of_room {f : Frame} {s : State} (h : s.tx.queue.length < 8) : (offerFrame f s).rx = s.rx := by
  rw [offerFrame_room f s h, placeFrame_rx]

/-! ### The Presence Scheduler -/

theorem periodicOfferDue_iff (p : Presence) :
    p.periodicOfferDue = true ↔ p.level.period ≤ p.presenceTimer ∨ p.periodicDue = true := by
  simp [Presence.periodicOfferDue]

theorem exec_periodicPresence {s : State} (h : s.running = true) : exec .periodicPresence s = .next (periodicPresence s) :=
  whenRunning_eq h

theorem exec_downshiftTest {s : State} (h : s.running = true) : exec .downshiftTest s = .next (downshiftTest s) := whenRunning_eq h

theorem periodicPresence_due {s : State} (h : s.presence.level.period ≤ s.presence.presenceTimer ∨ s.presence.periodicDue = true) :
    periodicPresence s = offer (.presence s.presence.level s.settings.fingerprint)
      (s.setPresence { s.presence with presenceTimer := 0, periodicDue := false }) := by
  rw [periodicPresence, if_pos ((periodicOfferDue_iff _).2 h)]
  rfl

theorem downshiftRefused_iff (s : State) : downshiftRefused s = true ↔ (∃ e ∈ s.claims.entries, e.state ≠ .ending)
    ∨ s.cues.manual ≠ .idle ∨ ∃ ch ∈ s.cues.channels.toList, ch.state ≠ .idle := by
  simp only [downshiftRefused, CueFrontEnd.busy, Bool.or_eq_true, List.any_eq_true, live_iff, bne_iff_ne]

/-- R135: the downshift test at the limit. -/
theorem downshiftTest_at_limit {s : State} {limit : Nat} (hdue : s.presence.downshiftDue = true)
    (hlimit : s.presence.level.downshiftLimit = some limit) (hle : limit ≤ s.presence.downshiftTimer) : downshiftTest s =
    if downshiftRefused s then s.setPresence { s.presence with downshiftDue := false }
    else offer (.presence s.presence.level.down s.settings.fingerprint) (s.setPresence
      { level := s.presence.level.down, downshiftTimer := 0, presenceTimer := 0, downshiftDue := false,
        periodicDue := s.presence.periodicDue || s.presence.level.period ≤ s.presence.presenceTimer }) := by
  have hat : (s.presence.downshiftDue && s.presence.atLimit) = true := by simp [hdue, Presence.atLimit, hlimit, hle]
  rw [downshiftTest, if_pos hat, Bool.or_comm]
  rfl

/-- Settles O49. -/
theorem presenceIsOfferedAndDownshifts : Obligations.PresenceIsOfferedAndDownshifts := by
  refine ⟨fun s hr => ?_, fun limit s hr hdue hlimit hle => ?_⟩
  · intro body zeroed due
    refine ⟨fun hnot => ?_, fun hdue hnone hroom => ?_, fun hdue before after f hq hf hothers => ?_⟩
    · rw [exec_periodicPresence hr, periodicPresence, if_neg fun h => hnot ((periodicOfferDue_iff _).1 h)]
    · have heq : periodicPresence s = offerFrame (ownFrame zeroed body) zeroed :=
        (periodicPresence_due hdue).trans (offer_presence_new (s := zeroed) hnone)
      have hground : sameGround s (offerFrame (ownFrame zeroed body) zeroed) := by
        unfold sameGround
        simp [zeroed]
      refine ⟨_, (exec_periodicPresence hr).trans (congrArg _ heq), ?_, offerFrame_queue_of_room (s := zeroed) hroom,
        offerFrame_port (s := zeroed) hroom, offerFrame_rx_of_room (s := zeroed) hroom, ?_, hground⟩
      · simp
      · simp [zeroed]
    · rw [exec_periodicPresence hr, periodicPresence_due hdue, offer_presence_held (s := zeroed) hq hf hothers]
      rfl
  · intro busy body
    refine ⟨fun hbusy => ?_, fun hfree => ?_⟩
    · rw [exec_downshiftTest hr, downshiftTest_at_limit hdue hlimit hle, if_pos ((downshiftRefused_iff s).2 hbusy)]
    · have heq := downshiftTest_at_limit hdue hlimit hle
      rw [if_neg fun h => hfree ((downshiftRefused_iff s).1 h)] at heq
      refine ⟨_, (exec_downshiftTest hr).trans (congrArg _ heq), ?_, fun hnone hroom => ?_,
        fun before after f hq hf hothers => ?_, ?_, ?_, ?_, ?_, ?_⟩
      · simp
      · rw [offer_presence_new (by exact hnone)]
        exact offerFrame_queue_of_room (s := s.setPresence _) hroom
      · rw [offer_presence_held (by exact hq) hf hothers]
        split <;> rfl
      · unfold sameGround
        simp
      all_goals simp

/-! ### The names of the own station -/

theorem exec_nameRepeat {s : State} (h : s.running = true) : exec .nameRepeat s = .next (repeatName s) := whenRunning_eq h

theorem newerName_next {text : Text} {station : Byte} {k : NameRecord} :
    newerName { text := text, version := k.version + 1, origin := station } k = true := by
  rw [newerName_iff]
  refine .inr (.inl ?_)
  have hone : k.version + 1 - k.version = 1 := by rw [BitVec.add_comm, BitVec.add_sub_cancel]
  show 1 ≤ (k.version + 1 - k.version).toNat ∧ _
  rw [hone]
  decide

theorem offer_name (version : Half) (text : Text) (s : State) :
    offer (.name version text) s = offerFrame (ownFrame s (.name version text)) s := rfl

/-- Settles O50. -/
theorem ownNamesArePendingAndRepeated : Obligations.OwnNamesArePendingAndRepeated := by
  refine ⟨fun text s hopen hroom hstation => ?_, fun s hr hroom => ⟨fun horigin htimer => ?_, fun hnot => ?_⟩⟩
  · intro k n
    have hnewest : s.names.newest = k := by
      cases hpending : s.names.pendingName with
      | none => exact (NameStore.newest_of_no_pending hpending).trans (by simp only [k, hpending])
      | some p => exact (NameStore.newest_of_pending hpending).trans (by simp only [k, hpending])
    have heq : setProgrammeName text s = answer .accepted (offerFrame (ownFrame s (.name n.version n.text))
        (s.setNames { s.names with pendingName := some n })) := by
      rw [setProgrammeName, hnewest]
      rfl
    refine ⟨newerName_next, _, (atRunningPort_eq hopen).trans (congrArg _ heq), ?_, offerFrame_queue_of_room (s := s.setNames _) hroom,
      ?_, ?_, ?_, ?_, ?_, ?_, ?_, ?_, ?_, ?_, ?_, ?_, ?_⟩
    · simp
    · show { (offerFrame (ownFrame s (.name n.version n.text)) (s.setNames _)).port with output := [0xA0] } = _
      rw [offerFrame_port (by exact hroom)]
      rfl
    case _ => simp
    case _ => simp
    case _ => simp
    case _ => simp
    case _ => simp
    case _ => simp
    case _ => simp
    case _ => exact offerFrame_rx_of_room (s := s.setNames _) hroom
    all_goals simp
  · have heq : repeatName s = offerFrame (ownFrame s (.name s.names.applied.version s.names.applied.text))
        (s.setNames { s.names with repeatTimer := 0 }) := if_pos ⟨horigin, htimer⟩
    refine ⟨_, (exec_nameRepeat hr).trans (congrArg _ heq), ?_, offerFrame_queue_of_room (s := s.setNames _) hroom,
      offerFrame_port (s := s.setNames _) hroom, ?_, offerFrame_rx_of_room (s := s.setNames _) hroom, ?_, ?_⟩ <;> simp
  · have hcondition : ¬ (s.names.applied.origin = s.settings.station ∧ Config.nameRepeatSeconds ≤ s.names.repeatTimer) :=
      fun h => hnot.elim (fun hne => hne h.1) fun hlt => absurd h.2 (Nat.not_le.2 hlt)
    rw [exec_nameRepeat hr, repeatName, if_neg hcondition]

end Sys2Proof.Machine
end
section
/-! The acts of the second count on single entries (R13, R15, R21, R22) and the selection at the guard's expiry (R46 to R57). -/

namespace Sys2Proof.Machine

/-! ### The slot after a selection run -/

theorem bestWaiting_eq (s : State) : s.bestWaiting = best (s.claims.entries.filter fun e => e.state == .waiting && e.candidate) := rfl

theorem select_fills {s : State} {x : Entry} (hair : s.selector.onAir = none) (hbest : s.bestWaiting = some x) :
    select s = onAirChange 0 (some x) (setEntryState x.key .onAir s) := by
  unfold select fillSlot
  rw [hair]
  dsimp only
  rw [hbest]

theorem select_empty {s : State} (hair : s.selector.onAir = none) (hbest : s.bestWaiting = none) : select s = s := by
  unfold select fillSlot
  rw [hair]
  dsimp only
  rw [hbest]
  rfl

theorem preempts_iff (s : State) (x y : Entry) : s.settings.preempts x y = true ↔ displaces s x y := by
  simp only [Settings.preempts, Settings.threshold, satAdd, Bool.or_eq_true, Bool.and_eq_true, beq_iff_eq, bne_iff_ne]
  exact or_congr_right decide_eq_true_iff

theorem select_displaces {s : State} {k : Byte × Byte} {x y : Entry} (hair : s.selector.onAir = some k) (hy : s.entry k = some y)
    (hbest : s.bestWaiting = some x) (hguard : s.selector.guard = none) (h : displaces s x y) :
    select s = onAirChange y.origin (some x) (setEntryState x.key .onAir (setEntryState y.key .waiting s)) := by
  unfold select
  rw [hair]
  dsimp only
  rw [hy, hbest]
  exact if_pos (by rw [(preempts_iff s x y).2 h, hguard]; rfl)

/-- An occupied slot stands where the guard runs, or where no WAITING candidate passes the test. -/
theorem select_stands {s : State} {k : Byte × Byte} (hair : s.selector.onAir = some k)
    (h : ∀ x y, s.bestWaiting = some x → s.entry k = some y → s.selector.guard ≠ none ∨ ¬ displaces s x y) : select s = s := by
  unfold select
  rw [hair]
  dsimp only
  split
  · next y x hy hx =>
    refine if_neg fun hboth => ?_
    obtain ⟨hpasses, hguard⟩ := Bool.and_eq_true_iff.1 hboth
    rcases h x y hx hy with hne | hnot
    · exact hne (Option.isNone_iff_eq_none.1 hguard)
    · exact hnot ((preempts_iff s x y).1 hpasses)
  · rfl

theorem select_guarded {s : State} {k : Byte × Byte} {n : Nat} (hguard : s.selector.guard = some n)
    (hair : s.selector.onAir = some k) : select s = s :=
  select_stands hair fun _ _ _ _ => .inl (by rw [hguard]; exact nofun)

/-- An entry in ENDING is not the one that goes on air. -/
theorem bestWaiting_key_ne {s : State} (hd : distinctClaims s) {k : Byte × Byte} {e x : Entry} (he : s.entry k = some e)
    (hending : e.state = .ending) (hx : s.bestWaiting = some x) : x.key ≠ k := by
  rintro rfl
  obtain ⟨hmem, hwaiting, -⟩ := bestWaiting_spec hx
  have hsame : x = e := Option.some.inj ((entry_of_mem hd hmem).symm.trans he)
  rw [hsame, hending] at hwaiting
  cases hwaiting

theorem onAirChange_onAir (old : Byte) (new : Option Entry) (s : State) :
    (onAirChange old new s).selector.onAir = new.map Entry.key := congrArg Selector.onAir (onAirChange_spec old new s).1

theorem some_key_ne {x : Entry} {k : Byte × Byte} (h : x.key ≠ k) : (some x).map Entry.key ≠ some k :=
  fun heq => h (Option.some.inj heq)

theorem fillSlot_onAir_ne {s : State} (hd : distinctClaims s) {k : Byte × Byte} {e : Entry} (he : s.entry k = some e)
    (hending : e.state = .ending) (hslot : s.selector.onAir ≠ some k) (old : Byte) (changed : Bool) :
    (fillSlot old changed s).selector.onAir ≠ some k := by
  unfold fillSlot
  split
  · next x hx =>
    rw [onAirChange_onAir]
    exact some_key_ne (bestWaiting_key_ne hd he hending hx)
  · split
    · rw [onAirChange_onAir]
      exact nofun
    · exact hslot

theorem select_onAir_ne {s : State} (hd : distinctClaims s) {k : Byte × Byte} {e : Entry} (he : s.entry k = some e)
    (hending : e.state = .ending) (hslot : s.selector.onAir ≠ some k) : (select s).selector.onAir ≠ some k := by
  rcases select_spec s with heq | ⟨x, _, hx, heq⟩ | ⟨_, x, _, _, _, hx, _, _, heq⟩ <;> rw [heq]
  · exact hslot
  · rw [onAirChange_onAir]
    exact some_key_ne (bestWaiting_key_ne hd he hending hx)
  · rw [onAirChange_onAir]
    exact some_key_ne (bestWaiting_key_ne hd he hending hx)

/-- The entry that ends leaves the slot. -/
theorem endEntry_onAir_ne {s : State} (hd : distinctClaims s) {k : Byte × Byte} {cause : EndCause} {e : Entry}
    (he : s.entry k = some e) (hlive : e.state ≠ .ending) (hslot : slotFits s k e) :
    (endEntry k cause s).selector.onAir ≠ some k := by
  have htold : (endingTold k cause e s).entry k = some (e.ended cause s.clock.stationTime) := by
    rw [endingTold_entry, if_pos rfl, he]
    rfl
  have hd' := distinctClaims_congr (keys_endingTold k cause e s) hd
  rw [endEntry_of_live he (live_iff.2 hlive)]
  show (refillSlot e (endingTold k cause e s)).selector.onAir ≠ some k
  unfold refillSlot
  split
  · exact fillSlot_onAir_ne (s := (endingTold k cause e s).setSelector { (endingTold k cause e s).selector with onAir := none })
      hd' htold rfl nofun e.origin true
  · next hne =>
    refine select_onAir_ne hd' htold rfl fun hair => hne (hslot ?_)
    rwa [endingTold_selector] at hair

/-- The ending of a remote claim offers its number to its origin, but for a restart. -/
theorem endEntry_remote_peers {k : Byte × Byte} {cause : EndCause} {s : State} {e : Entry} (he : s.entry k = some e)
    (hlive : e.state ≠ .ending) (hremote : e.isLocal = false) (hcause : cause ≠ .restarted) (p : Byte) :
    (endEntry k cause s).peer p = (noteEnded e.origin e.number s).peer p := by
  have hrefill (t : State) : (refillSlot e t).peers = t.peers := by
    unfold refillSlot
    split <;> simp
  have hpeers : (endEntry k cause s).peers =
      (noteEnded e.origin e.number (updateEntry k (Entry.ended cause s.clock.stationTime) s)).peers := by
    rw [endEntry_of_live he (live_iff.2 hlive), hrefill, (activeFrom_activity _).peers, tellEnding, if_neg (by simp [hremote]),
      if_neg hcause]
  have hpeer {t u : State} (h : t.peers = u.peers) : t.peer p = u.peer p := by rw [State.peer, State.peer, h]
  rw [hpeer hpeers, noteEnded_spec, noteEnded_spec]
  rfl

/-- The ending of a remote claim tells no cue source. -/
theorem endEntry_remote_cues {k : Byte × Byte} {cause : EndCause} {s : State} {e : Entry} (he : s.entry k = some e)
    (hlive : e.state ≠ .ending) (hremote : e.isLocal = false) : (endEntry k cause s).cues = s.cues := by
  have htold : (tellEnding e cause (updateEntry k (Entry.ended cause s.clock.stationTime) s)).cues = s.cues := by
    rw [tellEnding, if_neg (by simp [hremote])]
    split <;> simp
  rw [endEntry_of_live he (live_iff.2 hlive), refillSlot_cues, (activeFrom_activity _).cues, htold]

theorem entry_ended_remote {e : Entry} (h : e.isLocal = false) (cause : EndCause) (now : Time) : e.ended cause now =
    { e with state := .ending, endCause := some cause, endingSince := some now, repeatsLeft := none } := by
  rw [Entry.ended, h]
  rfl

/-! ### Lifetime and tail -/

/-- R13, R15, R22: the increases counted from a moment, one for each second increase after it. -/
theorem le_increasesSince (c : Clock) (k : Nat) (t : Time) :
    k ≤ c.increasesSince t ↔ k = 0 ∨ c.phase + 50 * (k - 1) < (c.stationTime - t).toNat := by
  unfold Clock.increasesSince
  omega

theorem exec_claimLifetimeExpiry {o n : Byte} {s : State} {e : Entry} (hr : s.running = true) (he : s.entry (o, n) = some e) :
    exec (.claimLifetimeExpiry o n) s = .next (if lifetimePassed s e then endEntry (o, n) .expired s else s) := by
  refine (whenRunning_eq hr).trans (congrArg _ ?_)
  unfold expireClaim
  rw [he]

theorem exec_endingTailExpiry {o n : Byte} {s : State} {e : Entry} (hr : s.running = true) (he : s.entry (o, n) = some e) :
    exec (.endingTailExpiry o n) s = .next (if tailPassed s e then select (removeEntry (o, n) s) else s) := by
  refine (whenRunning_eq hr).trans (congrArg _ ?_)
  unfold freeTail
  rw [he]

/-- Settles O29. -/
theorem lifetimeAndTailExpire : Obligations.LifetimeAndTailExpire := by
  refine ⟨fun o n e since s hr hd he hremote hlive hsince hstation hslot => ⟨fun hpassed => ?_, fun hahead => ?_⟩,
    fun o n e since s hr he hending hsince => ⟨fun hpassed => ?_, fun hahead => ?_⟩, le_increasesSince⟩
  · have hexec := exec_claimLifetimeExpiry hr he
    rw [if_pos (by simp [lifetimePassed, live_iff.2 hlive, hremote, hsince, hpassed])] at hexec
    obtain ⟨horigin, hnumber⟩ : e.origin = o ∧ e.number = n := Prod.ext_iff.1 (entry_key he)
    have hpeer (p : Byte) := endEntry_remote_peers (cause := .expired) he hlive hremote (by decide) p
    simp only [noteEnded_spec, horigin, hnumber] at hpeer
    refine ⟨_, hexec, ?_, ?_, fun p hp => ?_, ?_, ?_, endEntry_onAir_ne hd he hlive hslot, fun k hk => endEntry_others hd hk,
      sameGround_endEntry _ _ _, endEntry_remote_cues he hlive hremote⟩
    · rw [endEntry_entry_self hd he hlive hslot, entry_ended_remote hremote]
    · rw [hpeer, if_pos ⟨rfl, hstation⟩]
    · rw [hpeer, if_neg fun h => hp h.1]
    · rw [endEntry_presence he hlive]
      rfl
    · rw [endEntry_presence he hlive]
      rfl
  · rw [exec_claimLifetimeExpiry hr he, if_neg]
    simp only [lifetimePassed, hsince]
    simp [hahead]
  · have hexec := exec_endingTailExpiry hr he
    rw [if_pos (by simp [tailPassed, not_live_iff.2 hending, hsince, hpassed])] at hexec
    refine ⟨_, hexec, ?_, ?_, ?_, ?_, ?_⟩
    · exact select_entry_none ((removeEntry_spec _ _ s).trans (if_pos rfl))
    · refine (keys_select _).trans (congrArg (List.map Entry.key) (List.filter_congr fun x _ => ?_))
      rw [bne, beq_eq_decide, decide_not]
    · unfold sameGround
      simp
    all_goals simp
  · rw [exec_endingTailExpiry hr he, if_neg]
    simp only [tailPassed, hsince]
    simp [hahead]

/-! ### Refreshes and release repeats -/

theorem updateEntry_eq (k : Byte × Byte) (f : Entry → Entry) (s : State) : updateEntry k f s =
    s.setClaims { s.claims with entries := s.claims.entries.map fun e => if e.key = k then f e else e } := by
  simp only [updateEntry, beq_iff_eq]
  rfl

theorem exec_localRefresh {n : Byte} {s : State} {e : Entry} (hr : s.running = true) (he : s.entry (s.settings.station, n) = some e) :
    exec (.localRefresh n) s = .next (if refreshDue s e then
      updateEntry (s.settings.station, n) (fun x => { x with refreshCount := satInc 255 x.refreshCount, nextRefresh := x.nextRefresh + 2 })
        (offer (.claim n e.cls e.areas e.label e.refreshCount) s) else s) := by
  refine (whenRunning_eq hr).trans (congrArg _ ?_)
  unfold refreshLocal
  dsimp only
  rw [he]

theorem exec_releaseRepeat {n : Byte} {s : State} {e : Entry} {left : Nat} (hr : s.running = true)
    (he : s.entry (s.settings.station, n) = some e) (hleft : e.repeatsLeft = some left) :
    exec (.releaseRepeat n) s = .next (if releaseRepeatDue s e then
      updateEntry (s.settings.station, n) (fun x => { x with repeatsLeft := some (left - 1) }) (offer (.release n (3 - left)) s)
        else s) := by
  refine (whenRunning_eq hr).trans (congrArg _ ?_)
  unfold repeatRelease
  dsimp only
  rw [he]
  dsimp only
  rw [hleft]

theorem offer_claim_none {n : Byte} {cls : ClaimClass} {areas label : Byte} {k : Nat} {s : State}
    (h : ∀ f ∈ s.tx.queue, f.isWaitingClaim n = false) :
    offer (.claim n cls areas label k) s = offerFrame (ownFrame s (.claim n cls areas label k)) s := by
  have hany : s.tx.queue.any (Frame.isWaitingClaim n) = false := List.any_eq_false.2 fun f hf => by simp [h f hf]
  simp [offer, hany]

theorem offer_claim_waiting {n : Byte} {cls : ClaimClass} {areas label : Byte} {k : Nat} {s : State}
    (h : ∃ f ∈ s.tx.queue, f.isWaitingClaim n = true) : offer (.claim n cls areas label k) s =
      s.setTx { s.tx with queue := s.tx.queue.map fun f => if f.isWaitingClaim n then f.withRefreshCount k else f } := by
  have hany : s.tx.queue.any (Frame.isWaitingClaim n) = true := List.any_eq_true.2 h
  simp only [offer, hany, if_true]
  rfl

/-- What a frame placed in a queue with room, and an entry changed, leave as they were. -/
theorem updateEntry_offerFrame_keeps {f : Frame} {k : Byte × Byte} {g : Entry → Entry} {s : State} (hroom : s.tx.queue.length < 8) :
    (updateEntry k g (offerFrame f s)).claims =
        { s.claims with entries := s.claims.entries.map fun e => if e.key = k then g e else e }
    ∧ (updateEntry k g (offerFrame f s)).tx.queue = insertFrame f s.tx.queue
    ∧ sameGround s (updateEntry k g (offerFrame f s)) ∧ (updateEntry k g (offerFrame f s)).selector = s.selector
    ∧ (updateEntry k g (offerFrame f s)).cues = s.cues ∧ (updateEntry k g (offerFrame f s)).peers = s.peers
    ∧ (updateEntry k g (offerFrame f s)).presence = s.presence ∧ (updateEntry k g (offerFrame f s)).port = s.port
    ∧ (updateEntry k g (offerFrame f s)).cells = s.cells ∧ (updateEntry k g (offerFrame f s)).rx = s.rx := by
  refine ⟨?_, offerFrame_queue_of_room hroom, ?_, ?_, ?_, ?_, ?_, offerFrame_port hroom, ?_, offerFrame_rx_of_room hroom⟩
  · have hclaims : (offerFrame f s).claims = s.claims := by simp
    rw [updateEntry_eq, hclaims]
    rfl
  · unfold sameGround
    simp
  all_goals simp

/-- Settles O30. -/
theorem refreshesAndReleaseRepeats : Obligations.RefreshesAndReleaseRepeats := by
  refine ⟨fun n e s hr hd he hlocal hlive _ => ?_, fun n e left since s hr hd he hlocal hending hleft hsince hle hroom => ?_⟩
  · intro k raised
    have hexec := exec_localRefresh hr he
    have hdue (h : e.nextRefresh ≤ s.clock.secondCount) : refreshDue s e = true := by
      simp [refreshDue, live_iff.2 hlive, hlocal, h]
    refine ⟨fun htime hwaiting => ?_, fun htime hnone hroom => ?_, fun hahead => ?_⟩
    · rw [hexec, if_pos (hdue htime), offer_claim_waiting hwaiting, updateEntry_eq]
      rfl
    · rw [if_pos (hdue htime), offer_claim_none hnone] at hexec
      exact ⟨_, hexec, updateEntry_offerFrame_keeps hroom⟩
    · rw [hexec, if_neg]
      simp [refreshDue, hahead]
  · intro k
    have hexec := exec_releaseRepeat hr he hleft
    refine ⟨fun hpos hcount => ?_, fun hzero => ?_⟩
    · have hdue : releaseRepeatDue s e = true := by
        simp only [releaseRepeatDue, hleft, hsince]
        simp [not_live_iff.2 hending, hlocal, hpos, hcount]
      rw [if_pos hdue, offer_release] at hexec
      exact ⟨_, hexec, updateEntry_offerFrame_keeps hroom⟩
    · rw [hexec, if_neg]
      simp only [releaseRepeatDue, hleft, hsince]
      simp [hzero]

/-! ### The guard's expiry -/

theorem exec_guardTimerExpiry {s : State} {n : Nat} (hr : s.running = true) (hguard : s.selector.guard = some n)
    (hle : n ≤ s.clock.secondCount) :
    exec .guardTimerExpiry s = .next (select (s.setSelector { s.selector with guard := none })) := by
  refine (whenRunning_eq hr).trans (congrArg _ (if_pos ?_))
  simp only [guardExpired, hguard]
  exact decide_eq_true hle

theorem onAirChange_port {old : Byte} {new : Option Entry} {s : State} (hroom : s.tx.queue.length < 8) :
    (onAirChange old new s).port = portWith (changeEvent s.clock.stationTime old new) s.port := by
  unfold onAirChange
  dsimp only
  rw [activity_port]
  · cases new <;> dsimp only <;> rw [postEvent_eq] <;> rfl
  · cases new <;> dsimp only <;> rw [postEvent_tx] <;> exact hroom

theorem onAirChange_selector (old : Byte) (new : Option Entry) (s : State) :
    (onAirChange old new s).selector = changedTo new s := by
  rw [(onAirChange_spec old new s).1]
  cases new <;> rfl

theorem sameGround_onAirChange (old : Byte) (new : Option Entry) (s : State) : sameGround s (onAirChange old new s) := by
  unfold sameGround
  simp

theorem onAirChange_claims (old : Byte) (new : Option Entry) (s : State) : (onAirChange old new s).claims = s.claims :=
  (onAirChange_spec old new s).2.2.1

theorem onAirChange_cells (old : Byte) (new : Option Entry) (s : State) :
    (onAirChange old new s).cells = { s.cells with burst := 3 } := (onAirChange_spec old new s).2.1

theorem setEntryState_claims (k : Byte × Byte) (st : EntryState) (s : State) : (setEntryState k st s).claims =
    { s.claims with entries := s.claims.entries.map fun e => if e.key = k then { e with state := st } else e } := by
  rw [setEntryState, updateEntry_eq]
  rfl

/-- The entry that leaves the slot waits, and the one that takes it is ON_AIR. -/
theorem map_waiting_onAir (l : List Entry) (k j : Byte × Byte) :
    (l.map fun e => if e.key = k then { e with state := .waiting } else e).map
        (fun e => if e.key = j then { e with state := .onAir } else e) =
      l.map fun e => if e.key = j then { e with state := .onAir } else if e.key = k then { e with state := .waiting } else e := by
  rw [List.map_map]
  refine List.map_congr_left fun e _ => ?_
  have hkey : ({ e with state := .waiting } : Entry).key = e.key := rfl
  by_cases hk : e.key = k
  · simp only [Function.comp_apply, if_pos hk, hkey]
  · simp only [Function.comp_apply, if_neg hk]

/-- Settles O31. -/
theorem guardExpiryFillsOrPreempts : Obligations.GuardExpiryFillsOrPreempts := by
  refine ⟨fun n x s hr hguard hle hair hbest hevents hqueue => ?_, fun n x y k s hr hguard hle hd hair hy hstate hbest => ?_,
    fun n k s hguard hair => ⟨select_guarded hguard hair, fun hahead => ?_⟩⟩
  · have heq : select (s.setSelector { s.selector with guard := none }) = onAirChange 0 (some x)
        (setEntryState x.key .onAir (s.setSelector { s.selector with guard := none })) := select_fills hair hbest
    have hport := onAirChange_port (old := 0) (new := some x)
      (s := setEntryState x.key .onAir (s.setSelector { s.selector with guard := none })) hqueue
    refine ⟨_, (exec_guardTimerExpiry hr hguard hle).trans (congrArg _ heq), ?_, ?_, onAirChange_cells _ _ _, ?_,
      (onAirChange_spec _ _ _).2.2.2, ?_, ?_, ?_⟩
    · rw [onAirChange_claims, setEntryState_claims]
      rfl
    · rw [onAirChange_selector]
      rfl
    · rw [hport]
      exact congrArg SitePort.events (portWith_of_room (Nat.lt_succ_of_lt hevents))
    · exact sameGround_onAirChange 0 (some x) (setEntryState x.key .onAir (s.setSelector { s.selector with guard := none }))
    · simp
    · simp
  · intro passes
    have hbest' : (s.setSelector { s.selector with guard := none }).bestWaiting = some x := hbest
    refine ⟨fun hpasses => ?_, fun hnot => ?_⟩
    · have heq := select_displaces (s := s.setSelector { s.selector with guard := none }) hair hy hbest' rfl hpasses
      refine ⟨_, (exec_guardTimerExpiry hr hguard hle).trans (congrArg _ heq), ?_, ?_, ?_, ?_, ?_, onAirChange_cells _ _ _, ?_, ?_, ?_⟩
      · rw [onAirChange_claims, setEntryState_claims, setEntryState_claims, entry_key hy]
        show ({ s.claims with entries := _ } : ClaimTable) = _
        exact congrArg (fun l => ({ s.claims with entries := l } : ClaimTable)) (map_waiting_onAir _ _ _)
      · rw [onAirChange_selector]
        rfl
      · rw [onAirChange_selector]
        rfl
      · rw [onAirChange_selector]
        rfl
      · rw [onAirChange_selector]
        rfl
      · exact sameGround_onAirChange y.origin (some x) (setEntryState x.key .onAir
          (setEntryState y.key .waiting (s.setSelector { s.selector with guard := none })))
      · simp
      · simp
    · rw [exec_guardTimerExpiry hr hguard hle, select_stands (s := s.setSelector { s.selector with guard := none }) hair]
      intro x' y' hx' hy'
      rw [Option.some.inj (hx'.symm.trans hbest'), Option.some.inj (hy'.symm.trans hy)]
      exact .inr hnot
  · cases hr : s.running with
    | false => exact whenRunning_eq_of_not hr
    | true =>
      refine (whenRunning_eq hr).trans (congrArg _ (if_neg ?_))
      simp only [guardExpired, hguard]
      simp [hahead]

end Sys2Proof.Machine
end
section
/-! The Link Receiver (R100 to R107): each character by the receiver's state, and the whole frame. -/

namespace Sys2Proof.Machine

/-! ### A character -/

/-- The receiver with the line made busy by a start bit. -/
def busyRx (s : State) : Receiver := { s.rx with line := .busy }

/-- A character reaches the receiver on a line that its start bit has made busy. -/
theorem receiveCharacter_eq {s : State} (hr : s.running = true) (c : Byte) (e own : Bool) :
    receiveCharacter c e own s = receiveRunning c e own (s.setRx (busyRx s)) := by
  rw [receiveCharacter, setLine_of_running hr]
  exact if_pos (State.running_congr rfl hr)

theorem receiveCharacter_waitIdle {s : State} (hr : s.running = true) (hs : s.rx.state = .waitIdle) (c : Byte) (e own : Bool) :
    receiveCharacter c e own s = s.setRx (busyRx s) := by
  have hs' : (s.setRx (busyRx s)).rx.state = .waitIdle := hs
  rw [receiveCharacter_eq hr, receiveRunning, hs']

theorem receiveCharacter_start {s : State} (hr : s.running = true) (hs : s.rx.state = .ready) (own : Bool) :
    receiveCharacter 0xC3 false own s = s.setRx
      { s.rx with line := .busy, state := .assembling, length := none, buffer := [], framing := false, own := own } := by
  have hs' : (s.setRx (busyRx s)).rx.state = .ready := hs
  rw [receiveCharacter_eq hr, receiveRunning, hs']
  rfl

theorem receiveCharacter_stray {s : State} (hr : s.running = true) (hs : s.rx.state = .ready) {c : Byte} {e : Bool}
    (h : c ≠ 0xC3 ∨ e = true) (own : Bool) : receiveCharacter c e own s =
      s.setRx (emptiedReceiver s { s.rx.counters with stray := plusOne s.rx.counters.stray }) := by
  have hs' : (s.setRx (busyRx s)).rx.state = .ready := hs
  have hnot : ¬ (c = Config.startCharacter ∧ e = false) := fun ⟨hc, he⟩ =>
    h.elim (fun hne => hne hc) fun htrue => by rw [he] at htrue; cases htrue
  rw [receiveCharacter_eq hr, receiveRunning, hs']
  dsimp only
  rw [if_neg hnot]
  rfl

theorem receiveCharacter_assembling {s : State} (hr : s.running = true) (hs : s.rx.state = .assembling) (c : Byte) (e own : Bool) :
    receiveCharacter c e own s = assemble c e own (s.setRx (busyRx s)) := by
  have hs' : (s.setRx (busyRx s)).rx.state = .assembling := hs
  rw [receiveCharacter_eq hr, receiveRunning, hs']

/-- A length character outside 3..20 discards the assembly, and is counted where it is not own. -/
theorem assemble_badLength {s : State} {c : Byte} (hl : s.rx.length = none) (hc : c.toNat < 3 ∨ 20 < c.toNat) (e own : Bool) :
    assemble c e own s = if s.rx.own && own then rxWaitIdle s else countMalformed (rxWaitIdle s) := by
  rw [assemble, hl]
  exact if_pos hc

theorem assemble_length {s : State} {c : Byte} (hl : s.rx.length = none) (hlow : 3 ≤ c.toNat) (htop : c.toNat ≤ 20) (e own : Bool) :
    assemble c e own s = s.setRx { s.rx with length := some c, framing := s.rx.framing || e, own := s.rx.own && own } := by
  rw [assemble, hl]
  exact if_neg (by omega)

theorem assemble_stores {s : State} {c l : Byte} (hl : s.rx.length = some l) (hlt : s.rx.buffer.length + 1 < l.toNat + 2)
    (e own : Bool) : assemble c e own s =
      s.setRx { s.rx with buffer := s.rx.buffer ++ [c], framing := s.rx.framing || e, own := s.rx.own && own } := by
  rw [assemble, hl]
  exact if_pos (by simpa using hlt)

/-- The last character of an assembly completes it, and an own one goes no further. -/
theorem assemble_completes {s : State} {c l : Byte} (hl : s.rx.length = some l) (hlast : s.rx.buffer.length + 1 = l.toNat + 2)
    (e own : Bool) : assemble c e own s = if s.rx.own && own then rxWaitIdle s
      else completeAssembly l (s.rx.buffer ++ [c]) (s.rx.framing || e) (rxWaitIdle s) := by
  rw [assemble, hl]
  exact if_neg (by simp only [List.length_append, List.length_singleton]; omega)

/-! ### The commands of the receiver -/

theorem exec_startCharacter {s : State} (hr : s.running = true) :
    exec .startCharacter s = .next (receiveCharacter 0xC3 false false s) := unlessHeld_eq (free_of_running hr)

theorem exec_strayCharacter {s : State} (hr : s.running = true) (c : Byte) (e : Bool) :
    exec (.strayCharacter c e) s = .next (receiveCharacter c e false s) := unlessHeld_eq (free_of_running hr)

theorem exec_badLengthCharacter {s : State} (hr : s.running = true) (c : Byte) (e : Bool) :
    exec (.badLengthCharacter c e) s = .next (receiveCharacter c e false s) := unlessHeld_eq (free_of_running hr)

theorem exec_assemblyCharacter {s : State} (hr : s.running = true) (c : Byte) (e : Bool) :
    exec (.assemblyCharacter c e) s = .next (receiveCharacter c e false s) := unlessHeld_eq (free_of_running hr)

theorem exec_discardedAssembly {s : State} (hr : s.running = true) (c : Byte) (e : Bool) :
    exec (.discardedAssembly c e) s = .next (receiveCharacter c e false s) := unlessHeld_eq (free_of_running hr)

theorem exec_lineIdle {s : State} (hr : s.running = true) : exec .lineIdle s = .next (s.setRx
    { s.rx with line := .idle, state := if s.rx.state = .waitIdle then .ready else s.rx.state }) := by
  refine (unlessHeld_eq (free_of_running hr)).trans (congrArg _ ?_)
  have hr' : (s.setRx { s.rx with line := .idle }).running = true := State.running_congr rfl hr
  rw [becomeIdle, setLine_of_running hr]
  dsimp only
  rw [hr']
  by_cases hs : s.rx.state = .waitIdle
  · rw [if_pos ⟨rfl, hs⟩, if_pos hs]
    rfl
  · rw [if_neg fun h => hs h.2, if_neg hs]

theorem exec_assemblyAbandoned {s : State} (hr : s.running = true) (hs : s.rx.state = .assembling) :
    exec .assemblyAbandoned s = .next (if s.rx.own then rxWaitIdle s
      else countLink (fun c => { c with truncated := inc16 c.truncated }) (rxWaitIdle s)) := by
  refine (whenRunning_eq hr).trans (congrArg _ ?_)
  rw [abandonAssembly, hs]

/-- Settles O34. -/
theorem charactersMoveTheReceiver : Obligations.CharactersMoveTheReceiver := by
  refine ⟨fun s hr => ⟨?_, exec_lineIdle hr⟩, fun s hr => ⟨fun hs => ?_, fun hs c e hce => ?_, fun hs c e => ?_⟩,
    fun c e s hr hs => ⟨fun hl hc => ?_, fun hl hlow htop => ?_, fun l hl hlt => ?_, ?_⟩⟩
  · exact (unlessHeld_eq (free_of_running hr)).trans (congrArg _ (setLine_of_running hr))
  · rw [exec_startCharacter hr, receiveCharacter_start hr hs]
  · rw [exec_strayCharacter hr, receiveCharacter_stray hr hs hce]
  · rw [exec_strayCharacter hr, receiveCharacter_waitIdle hr hs]
    rfl
  · rw [exec_badLengthCharacter hr, receiveCharacter_assembling hr hs, assemble_badLength (by exact hl) hc, Bool.and_false]
    rfl
  · rw [exec_assemblyCharacter hr, receiveCharacter_assembling hr hs, assemble_length (by exact hl) hlow htop, Bool.and_false]
    rfl
  · rw [exec_assemblyCharacter hr, receiveCharacter_assembling hr hs, assemble_stores (by exact hl) (by exact hlt), Bool.and_false]
    rfl
  · rw [exec_assemblyAbandoned hr hs]
    by_cases hown : s.rx.own = true
    · rw [if_pos hown, if_pos hown]
      rfl
    · rw [if_neg hown, if_neg hown]
      rfl

/-! ### The characters of a frame -/

theorem halfOf_bytes (h : Half) : halfOf (hiByte h) (loByte h) = h := by
  have hlt := h.isLt
  refine BitVec.eq_of_toNat_eq ?_
  rw [halfOf_toNat, hiByte, loByte, BitVec.extractLsb'_toNat, BitVec.extractLsb'_toNat, Nat.shiftRight_eq_div_pow,
    Nat.shiftRight_eq_div_pow]
  omega

/-- The characters of a frame behind its length character. -/
def wireBody (kind origin mark : Byte) (payload : List Byte) : List Byte :=
  kind :: origin :: mark :: payload
    ++ halfBytes (crc16 (BitVec.ofNat 8 (3 + payload.length) :: kind :: origin :: mark :: payload))

theorem length_wireBody (kind origin mark : Byte) (payload : List Byte) :
    (wireBody kind origin mark payload).length = 3 + payload.length + 2 := by
  simp [wireBody, halfBytes]
  omega

theorem lengthOfKind_range {kind : Byte} {n : Nat} (h : lengthOfKind kind = some n) : 5 ≤ n ∧ n ≤ 17 := by
  unfold lengthOfKind at h
  split_ifs at h <;> cases h <;> decide

theorem byteAt_append_length {l m : List Byte} (i : Nat) : byteAt (l ++ m) (l.length + i) = byteAt m i := by
  unfold byteAt
  rw [List.getD_append_right _ _ _ _ (Nat.le_add_right _ _), Nat.add_sub_cancel_left]

/-- What a frame of a station passes through the checks of R104 as: itself, or a frame with the own number. -/
theorem judgeAssembly_wireBody {own kind origin mark : Byte} {payload : List Byte}
    (hkind : lengthOfKind kind = some (3 + payload.length)) (hstation : isStation origin = true) :
    judgeAssembly own (BitVec.ofNat 8 (3 + payload.length)) (wireBody kind origin mark payload) false =
      if origin = own then .duplicate kind mark else .accepted kind origin mark payload := by
  obtain ⟨-, hle⟩ := lengthOfKind_range hkind
  have hlength : (BitVec.ofNat 8 (3 + payload.length)).toNat = (kind :: origin :: mark :: payload).length := by
    simp only [BitVec.toNat_ofNat, List.length_cons]
    omega
  have htake : (wireBody kind origin mark payload).take (kind :: origin :: mark :: payload).length =
      kind :: origin :: mark :: payload := List.take_left' rfl
  have hcrc : halfOf (byteAt (wireBody kind origin mark payload) ((kind :: origin :: mark :: payload).length))
      (byteAt (wireBody kind origin mark payload) ((kind :: origin :: mark :: payload).length + 1)) =
      crc16 (BitVec.ofNat 8 (3 + payload.length) :: kind :: origin :: mark :: payload) := by
    unfold wireBody
    rw [← Nat.add_zero (kind :: origin :: mark :: payload).length, byteAt_append_length, Nat.add_assoc, byteAt_append_length]
    exact halfOf_bytes _
  have hn : (kind :: origin :: mark :: payload).length = 3 + payload.length := by simp only [List.length_cons]; omega
  have h0 : byteAt (wireBody kind origin mark payload) 0 = kind := rfl
  have h1 : byteAt (wireBody kind origin mark payload) 1 = origin := rfl
  have h2 : byteAt (wireBody kind origin mark payload) 2 = mark := rfl
  unfold judgeAssembly
  dsimp only
  rw [hlength, htake, hcrc, h0, h1, h2, if_neg (by decide), if_neg (not_not.2 rfl), hkind]
  dsimp only
  rw [if_neg (not_not.2 hn), if_neg (by simp [hstation])]
  rfl

/-- The length of every kind of frame a station sends is its kind's. -/
theorem lengthOfKind_body (b : FrameBody) : lengthOfKind b.kindCode = some (3 + b.payload.length) := by
  cases b <;> simp [FrameBody.kindCode, FrameBody.payload, halfBytes, lengthOfKind]

theorem characters_eq (f : Frame) : f.characters =
    0xC3 :: f.lengthByte :: wireBody f.body.kindCode f.origin f.mark f.body.payload := rfl

theorem lengthByte_eq (f : Frame) : f.lengthByte = BitVec.ofNat 8 (3 + f.body.payload.length) := rfl

theorem lengthByte_toNat (f : Frame) : f.lengthByte.toNat = 3 + f.body.payload.length ∧ 5 ≤ f.lengthByte.toNat ∧
    f.lengthByte.toNat ≤ 17 := by
  have hrange := lengthOfKind_range (lengthOfKind_body f.body)
  have hlength : f.lengthByte.toNat = 3 + f.body.payload.length := by
    rw [lengthByte_eq, BitVec.toNat_ofNat]
    omega
  omega

/-- Settles O32. -/
theorem framesPassTheChecksUnchanged : Obligations.FramesPassTheChecksUnchanged := by
  refine ⟨fun f own hstation hne => ?_, fun s => ⟨fun hnone i => ?_, fun a ha => ?_⟩, fun c stop s hr => ⟨characterOf_levels c stop, ?_⟩⟩
  · refine ⟨f.lengthByte, _, characters_eq f, ?_, ?_⟩
    · rw [length_wireBody, (lengthByte_toNat f).1]
    · rw [lengthByte_eq, judgeAssembly_wireBody (lengthOfKind_body f.body) hstation, if_neg hne]
  · unfold State.linkTransmit
    rw [hnone]
  · have hlevel (i : Nat) : s.linkTransmit i = (characterLevels (byteAt a.chars a.index)).getD i true := by
      unfold State.linkTransmit
      rw [ha]
    simp only [List.range, List.range.loop, List.map_cons, List.map_nil, hlevel]
    rfl
  · rw [exec_assemblyCharacter hr, receiveLevels, characterOf_levels]

/-! ### The last character -/

/-- The last character of an assembly that is not own brings its handling, from a receiver back in WAIT_IDLE. -/
theorem receiveCharacter_completes {s : State} {c l : Byte} {e : Bool} (hr : s.running = true) (hs : s.rx.state = .assembling)
    (hl : s.rx.length = some l) (hlast : s.rx.buffer.length + 1 = l.toNat + 2) :
    receiveCharacter c e false s = completeAssembly l (s.rx.buffer ++ [c]) (s.rx.framing || e)
      (s.setRx (emptiedReceiver s s.rx.counters)) := by
  rw [receiveCharacter_assembling hr hs, assemble_completes (by exact hl) (by exact hlast), Bool.and_false]
  rfl

theorem completeAssembly_accepted {l : Byte} {buffer payload : List Byte} {framing : Bool} {kind origin mark : Byte} {s : State}
    (h : judgeAssembly s.settings.station l buffer framing = .accepted kind origin mark payload) :
    completeAssembly l buffer framing s = dispatchFrame kind origin mark payload s := by
  rw [completeAssembly, h]

/-- The characters of an assembly, up to the last, bring its handling once. -/
theorem receiveAll_assembly {l : Byte} : ∀ {rest : List Byte} {s : State}, s.running = true → s.rx.state = .assembling →
    s.rx.length = some l → rest ≠ [] → s.rx.buffer.length + rest.length = l.toNat + 2 →
    receiveAll rest s = .next (completeAssembly l (s.rx.buffer ++ rest) s.rx.framing (s.setRx (emptiedReceiver s s.rx.counters)))
  | [], _, _, _, _, hne, _ => absurd rfl hne
  | [c], s, hr, hs, hl, _, hlast => by
    show (match exec (.assemblyCharacter c false) s with
      | .next t => receiveAll [] t | .fault r => .fault r | .refused r => .refused r) = _
    rw [exec_assemblyCharacter hr, receiveCharacter_completes hr hs hl hlast, Bool.or_false]
    rfl
  | c :: d :: rest, s, hr, hs, hl, _, hlast => by
    have hlt : s.rx.buffer.length + 1 < l.toNat + 2 := by
      simp only [List.length_cons] at hlast
      omega
    have hstep : exec (.assemblyCharacter c false) s = .next (s.setRx { s.rx with line := .busy, buffer := s.rx.buffer ++ [c], own := false }) := by
      rw [exec_assemblyCharacter hr, receiveCharacter_assembling hr hs, assemble_stores (by exact hl) (by exact hlt),
        Bool.and_false, Bool.or_false]
      rfl
    have hrest := receiveAll_assembly (l := l) (rest := d :: rest)
      (s := s.setRx { s.rx with line := .busy, buffer := s.rx.buffer ++ [c], own := false }) (State.running_congr rfl hr) hs hl
      (List.cons_ne_nil _ _) (by simp only [State.setRx_rx, List.length_append, List.length_cons, List.length_nil] at hlast ⊢; omega)
    show (match exec (.assemblyCharacter c false) s with
      | .next t => receiveAll (d :: rest) t | .fault r => .fault r | .refused r => .refused r) = _
    rw [hstep]
    refine hrest.trans ?_
    rw [State.setRx_rx, List.append_assoc]
    rfl

/-- Settles O33. -/
theorem aWholeFrameIsDispatched : Obligations.AWholeFrameIsDispatched := by
  intro f s hr hs hstation hne
  obtain ⟨hlength, hlow, htop⟩ := lengthByte_toNat f
  refine ⟨_, (exec_startCharacter hr).trans (congrArg _ (receiveCharacter_start hr hs false)), rfl, ?_⟩
  generalize hstart : s.setRx { s.rx with line := .busy, state := .assembling, length := none, buffer := [], framing := false,
                                          own := false } = t
  have hrt : t.running = true := hstart ▸ State.running_congr rfl hr
  have htaken : exec (.assemblyCharacter f.lengthByte false) t = .next (t.setRx { t.rx with length := some f.lengthByte }) := by
    subst hstart
    rw [exec_assemblyCharacter hrt, receiveCharacter_assembling hrt rfl, assemble_length rfl (by omega) (by omega)]
    rfl
  have hbody := receiveAll_assembly (l := f.lengthByte) (rest := wireBody f.body.kindCode f.origin f.mark f.body.payload)
    (s := t.setRx { t.rx with length := some f.lengthByte }) (State.running_congr rfl hrt) (by subst hstart; rfl) rfl (List.cons_ne_nil _ _)
    (by subst hstart; rw [length_wireBody, hlength]; exact Nat.zero_add _)
  have haccepted : judgeAssembly s.settings.station f.lengthByte (wireBody f.body.kindCode f.origin f.mark f.body.payload) false =
      .accepted f.body.kindCode f.origin f.mark f.body.payload := by
    rw [lengthByte_eq, judgeAssembly_wireBody (lengthOfKind_body f.body) hstation, if_neg hne]
  show (match exec (.assemblyCharacter f.lengthByte false) t with
    | .next u => receiveAll (wireBody f.body.kindCode f.origin f.mark f.body.payload) u
    | .fault r => .fault r | .refused r => .refused r) = _
  rw [htaken]
  refine hbody.trans (congrArg _ ?_)
  subst hstart
  exact completeAssembly_accepted haccepted

/-! ### Discarded assemblies -/

theorem exec_discardedAssembly_last {s : State} {c l : Byte} {e : Bool} (hr : s.running = true) (hs : s.rx.state = .assembling)
    (hl : s.rx.length = some l) (hlast : s.rx.buffer.length + 1 = l.toNat + 2) : exec (.discardedAssembly c e) s =
      .next (completeAssembly l (s.rx.buffer ++ [c]) (s.rx.framing || e) (s.setRx (emptiedReceiver s s.rx.counters))) := by
  rw [exec_discardedAssembly hr, receiveCharacter_completes hr hs hl hlast]

theorem judgeAssembly_badCrc {own l : Byte} {b : List Byte}
    (h : crc16 (l :: b.take l.toNat) ≠ halfOf (byteAt b l.toNat) (byteAt b (l.toNat + 1))) : judgeAssembly own l b false = .badCrc :=
  if_pos h

/-- With no framing mark and a good CRC the verdict is that of the kind, the length and the origin. -/
theorem judgeAssembly_good {own l : Byte} {b : List Byte}
    (h : crc16 (l :: b.take l.toNat) = halfOf (byteAt b l.toNat) (byteAt b (l.toNat + 1))) : judgeAssembly own l b false =
      (lengthOfKind (byteAt b 0)).elim .unknownKind fun n =>
        if l.toNat ≠ n then .malformed else if !isStation (byteAt b 1) then .malformed
        else if byteAt b 1 = own then .duplicate (byteAt b 0) (byteAt b 2)
        else .accepted (byteAt b 0) (byteAt b 1) (byteAt b 2) ((b.take l.toNat).drop 3) := by
  unfold judgeAssembly
  dsimp only
  rw [if_neg (by decide), if_neg (not_not.2 h)]
  cases lengthOfKind (byteAt b 0) <;> rfl

theorem lengthOfKind_unknown {kind : Byte} (h : kind.toNat = 0 ∨ 5 < kind.toNat) : lengthOfKind kind = none := by
  have hne (n : Byte) (h1 : 1 ≤ n.toNat) (h2 : n.toNat ≤ 5) : kind ≠ n := fun heq => by rw [heq] at h; omega
  rw [lengthOfKind, if_neg (hne 1 (by decide) (by decide)), if_neg (hne 2 (by decide) (by decide)),
    if_neg (hne 3 (by decide) (by decide)), if_neg (hne 4 (by decide) (by decide)), if_neg (hne 5 (by decide) (by decide))]

theorem isStation_eq_false {b : Byte} (h : b.toNat = 0 ∨ 31 < b.toNat) : isStation b = false := by
  rw [Bool.eq_false_iff]
  intro hstation
  simp only [isStation, Bool.and_eq_true, decide_eq_true_eq] at hstation
  omega

theorem duplicateReportDue_iff (s : State) : duplicateReportDue s = true ↔
    s.rx.lastDuplicate = none ∨ ∃ m, s.rx.lastDuplicate = some m ∧ 60 ≤ s.clock.secondCount - m := by
  unfold duplicateReportDue
  cases s.rx.lastDuplicate with
  | none => simp
  | some m =>
    simp only [reduceCtorEq, false_or, Option.some.injEq, exists_eq_left']
    exact decide_eq_true_iff

theorem hearDuplicate_eq (kind mark : Byte) (s : State) : hearDuplicate kind mark s =
    let counted := s.setRx { s.rx with counters :=
      { s.rx.counters with duplicateStation := plusOne s.rx.counters.duplicateStation } }
    if duplicateReportDue s then
      (counted.setRx { counted.rx with lastDuplicate := some s.clock.secondCount }).setPort
        (portWith ⟨.duplicateStation, s.clock.stationTime, kind, mark, 0⟩ s.port)
    else counted := by
  rw [hearDuplicate]
  dsimp only
  rw [postEvent_eq]
  rfl

/-- Settles O35. -/
theorem discardedAssembliesAreCounted : Obligations.DiscardedAssembliesAreCounted := by
  refine ⟨fun c l e s hr hs hl hlast _ => ?_, fun f last s hr hs hl hstored hclean _ horigin hstation hroom => ?_⟩
  · intro b k crcGood kind origin discarded
    have hexec := exec_discardedAssembly_last (c := c) (e := e) hr hs hl hlast
    have hjudged {v : AssemblyVerdict} (h : judgeAssembly s.settings.station l b (s.rx.framing || e) = v) :
        judgeAssembly (s.setRx (emptiedReceiver s s.rx.counters)).settings.station l b (s.rx.framing || e) = v := h
    refine ⟨fun hframing => ?_, fun hframing hbad => ?_, fun hframing hgood hkind => ?_, fun hframing hgood ⟨n, hn, hne⟩ => ?_,
      fun hframing hgood ⟨n, hn, heq⟩ horigin => ?_⟩
    · refine hexec.trans ?_
      rw [completeAssembly, hjudged (v := .framing) (if_pos hframing)]
      rfl
    · refine hexec.trans ?_
      rw [completeAssembly, hjudged (v := .badCrc) (by rw [hframing]; exact judgeAssembly_badCrc hbad)]
      rfl
    · have hverdict : judgeAssembly s.settings.station l b (s.rx.framing || e) = .unknownKind := by
        rw [hframing, judgeAssembly_good hgood, lengthOfKind_unknown hkind]
        rfl
      refine hexec.trans ?_
      rw [completeAssembly, hjudged hverdict]
      rfl
    · have hverdict : judgeAssembly s.settings.station l b (s.rx.framing || e) = .malformed := by
        rw [hframing, judgeAssembly_good hgood, hn]
        exact if_pos hne
      refine hexec.trans ?_
      rw [completeAssembly, hjudged hverdict]
      rfl
    · have hverdict : judgeAssembly s.settings.station l b (s.rx.framing || e) = .malformed := by
        rw [hframing, judgeAssembly_good hgood, hn, Option.elim_some, if_neg (not_not.2 heq),
          if_pos (by rw [isStation_eq_false horigin]; rfl)]
      refine hexec.trans ?_
      rw [completeAssembly, hjudged hverdict]
      rfl
  · intro k rx due
    have hbuffer : s.rx.buffer ++ [last] = wireBody f.body.kindCode f.origin f.mark f.body.payload := hstored
    have hlast : s.rx.buffer.length + 1 = f.lengthByte.toNat + 2 := by
      have := congrArg List.length hbuffer
      rw [length_wireBody, List.length_append] at this
      rw [(lengthByte_toNat f).1]
      exact this
    have hverdict : judgeAssembly s.settings.station f.lengthByte (s.rx.buffer ++ [last]) (s.rx.framing || false) =
        .duplicate f.body.kindCode f.mark := by
      rw [hbuffer, hclean, lengthByte_eq, Bool.or_self, judgeAssembly_wireBody (lengthOfKind_body f.body) hstation, if_pos horigin]
    have hverdict' : judgeAssembly (s.setRx (emptiedReceiver s s.rx.counters)).settings.station f.lengthByte (s.rx.buffer ++ [last])
        (s.rx.framing || false) = .duplicate f.body.kindCode f.mark := hverdict
    have hexec := exec_discardedAssembly_last (c := last) (e := false) hr hs hl hlast
    rw [completeAssembly, hverdict'] at hexec
    dsimp only at hexec
    rw [hearDuplicate_eq] at hexec
    have hiff := duplicateReportDue_iff (s.setRx (emptiedReceiver s s.rx.counters))
    refine ⟨fun hnot => hexec.trans (congrArg _ (if_neg fun h => hnot (hiff.1 h))), fun hdue => ?_⟩
    refine hexec.trans (congrArg _ ((if_pos (hiff.2 hdue)).trans ?_))
    rw [portWith_of_room (by exact hroom)]
    rfl

end Sys2Proof.Machine
end
section
/-! Accepted frames of a known sender (R108, R124), and what CLAIM, RELEASE, PRESENCE and NAME frames do (R6 to R11, R126 to R128,
R144). -/

namespace Sys2Proof.Machine

/-! ### An accepted frame -/

/-- The state in which an accepted frame of a known sender is handed on: the sender is heard and the frame counted. -/
def heardState (s : State) (origin : Byte) : State :=
  (s.setPeers (s.peers.setIfInBounds (origin.toNat - 1) (heardPeer s origin))).setRx (heardReceiver s)

theorem peer_heard (s : State) (o : Byte) : (s.peer o).heard s.clock = heardPeer s o := by
  have hafter : s.clock.after (3 * (s.peer o).level.period) =
      s.clock.stationTime + BitVec.ofNat 32 (150 * (s.peer o).level.period) := by
    rw [Clock.after, show 3 * (s.peer o).level.period * Config.intervalsPerSecond = 150 * (s.peer o).level.period by
      simp only [Config.intervalsPerSecond]; omega]
  rw [Peer.heard, hafter, inc16, satInc_eq_min]
  rfl

theorem updatePeer_heard {s : State} {o : Byte} (ho : isStation o = true) :
    updatePeer o (Peer.heard s.clock) s = s.setPeers (s.peers.setIfInBounds (o.toNat - 1) (heardPeer s o)) := by
  rw [updatePeer, if_pos ho, peer_heard]

theorem heardState_peer {s : State} {o : Byte} (ho : isStation o = true) (p : Byte) :
    (heardState s o).peer p = if p = o then heardPeer s o else s.peer p := by
  have hspec := updatePeer_spec o p (Peer.heard s.clock) s
  rw [updatePeer_heard ho, peer_heard] at hspec
  refine Eq.trans ?_ (hspec.trans ?_)
  · rfl
  · simp only [ho, and_true]

theorem heardState_self {s : State} {o : Byte} (ho : isStation o = true) : (heardState s o).peer o = heardPeer s o := by
  rw [heardState_peer ho, if_pos rfl]

theorem heardState_other {s : State} {o p : Byte} (ho : isStation o = true) (h : p ≠ o) : (heardState s o).peer p = s.peer p := by
  rw [heardState_peer ho, if_neg h]

theorem sameGround_heardState (s : State) (o : Byte) : sameGround s (heardState s o) := ⟨rfl, rfl, rfl, rfl, rfl, rfl⟩

/-- R124: a frame of a PRESENT sender with its stored mark brings no event and no restart. -/
theorem hearPeer_known {s : State} {o mark : Byte} (ho : isStation o = true) (hpresent : (s.peer o).state = .present)
    (hmark : (s.peer o).mark = some mark) (kind : Byte) :
    hearPeer o mark kind s = s.setPeers (s.peers.setIfInBounds (o.toNat - 1) (heardPeer s o)) := by
  have hpeer : ((s.setPeers (s.peers.setIfInBounds (o.toNat - 1) (heardPeer s o))).peer o).mark = some mark :=
    (congrArg Peer.mark (heardState_self ho)).trans hmark
  rw [hearPeer, updatePeer_heard ho, if_neg (not_not.2 hpresent), compareMark, hpeer]
  exact if_pos rfl

/-- The part of a frame's handling that depends on its kind. -/
def handOn (kind origin : Byte) (payload : List Byte) (s : State) : State :=
  if kind = 1 then presencePayload origin payload s
  else if kind = 2 then claimPayload origin payload s
  else if kind = 3 then releasePayload origin payload s
  else if kind = 4 then lapsePayload origin payload s
  else namePayload origin payload s

theorem dispatchFrame_eq (kind o mark : Byte) (payload : List Byte) (s : State) : dispatchFrame kind o mark payload s =
    handOn kind o payload (countLink (fun c => { c with framesAccepted := inc16 c.framesAccepted }) (hearPeer o mark kind s)) := rfl

theorem dispatchFrame_known {s : State} {o mark : Byte} (ho : isStation o = true) (hpresent : (s.peer o).state = .present)
    (hmark : (s.peer o).mark = some mark) (kind : Byte) (payload : List Byte) :
    dispatchFrame kind o mark payload (s.setRx (emptiedReceiver s s.rx.counters)) = handOn kind o payload (heardState s o) := by
  rw [dispatchFrame_eq, hearPeer_known (s := s.setRx (emptiedReceiver s s.rx.counters)) ho hpresent hmark]
  rfl

/-- The last character of a frame of another station hands it on once. -/
theorem Completes.received {s : State} {f : Frame} {last : Byte} (h : Completes s f last) :
    receiveCharacter last false false s =
      dispatchFrame f.body.kindCode f.origin f.mark f.body.payload (s.setRx (emptiedReceiver s s.rx.counters)) := by
  have hbuffer : s.rx.buffer ++ [last] = wireBody f.body.kindCode f.origin f.mark f.body.payload := h.stored
  have hlast : s.rx.buffer.length + 1 = f.lengthByte.toNat + 2 := by
    have := congrArg List.length hbuffer
    rw [length_wireBody, List.length_append] at this
    rw [(lengthByte_toNat f).1]
    exact this
  rw [receiveCharacter_completes h.running h.assembling h.length hlast, hbuffer, h.clean, Bool.or_self]
  refine completeAssembly_accepted ?_
  rw [lengthByte_eq, judgeAssembly_wireBody (lengthOfKind_body f.body) h.sender]
  exact if_neg h.peer

theorem Completes.known {s : State} {f : Frame} {last : Byte} (h : Completes s f last) (hknown : knownSender s f) :
    receiveCharacter last false false s = handOn f.body.kindCode f.origin f.body.payload (heardState s f.origin) := by
  rw [h.received, dispatchFrame_known h.sender hknown.1 hknown.2]

theorem CompletesRaw.received {s : State} {kind o mark last : Byte} {payload : List Byte}
    (h : CompletesRaw s kind o mark payload last) (hkind : lengthOfKind kind = some (3 + payload.length)) :
    receiveCharacter last false false s = handOn kind o payload (heardState s o) := by
  have hbuffer : s.rx.buffer ++ [last] = wireBody kind o mark payload := h.stored
  obtain ⟨-, hle⟩ := lengthOfKind_range hkind
  have hlast : s.rx.buffer.length + 1 = (BitVec.ofNat 8 (3 + payload.length)).toNat + 2 := by
    have := congrArg List.length hbuffer
    rw [length_wireBody, List.length_append] at this
    rw [BitVec.toNat_ofNat, Nat.mod_eq_of_lt (by omega)]
    exact this
  rw [receiveCharacter_completes h.running h.assembling h.length hlast, hbuffer, h.clean, Bool.or_self,
    ← dispatchFrame_known h.sender h.present h.known]
  refine completeAssembly_accepted ?_
  rw [judgeAssembly_wireBody hkind h.sender]
  exact if_neg h.peer

theorem exec_claimFrame {s : State} (hr : s.running = true) (last : Byte) :
    exec (.claimFrame last) s = .next (receiveCharacter last false false s) := unlessHeld_eq (free_of_running hr)

theorem exec_releaseFrame {s : State} (hr : s.running = true) (last : Byte) :
    exec (.releaseFrame last) s = .next (receiveCharacter last false false s) := unlessHeld_eq (free_of_running hr)

theorem exec_lapseFrame {s : State} (hr : s.running = true) (last : Byte) :
    exec (.lapseFrame last) s = .next (receiveCharacter last false false s) := unlessHeld_eq (free_of_running hr)

theorem exec_presenceFrame {s : State} (hr : s.running = true) (last : Byte) :
    exec (.presenceFrame last) s = .next (receiveCharacter last false false s) := unlessHeld_eq (free_of_running hr)

theorem exec_nameFrame {s : State} (hr : s.running = true) (last : Byte) :
    exec (.nameFrame last) s = .next (receiveCharacter last false false s) := unlessHeld_eq (free_of_running hr)

/-- A payload that is rejected. -/
theorem countMalformed_heard (s : State) (o : Byte) : countMalformed (heardState s o) = rejectedPayload s o := rfl

/-! ### NAME and PRESENCE frames -/

theorem ofNat_toNat_of_le {k : Nat} (h : k ≤ 255) : (countByte k).toNat = k := by
  rw [countByte, BitVec.toNat_ofNat]
  omega

theorem textAt_payload (x y : Byte) (t : Text) : textAt (x :: y :: t.toList) 2 = t := by
  refine Vector.ext fun i hi => ?_
  simp only [textAt, Vector.getElem_mk, List.getElem_toArray, List.getElem_map, List.getElem_range, byteAt]
  rw [Nat.add_comm 2 i, List.getD_cons_succ, List.getD_cons_succ, List.getD_eq_getElem _ _ (by simpa using hi)]
  simp

/-- R144: a NAME frame that a station sends. -/
theorem namePayload_eq (o : Byte) (version : Half) (text : Text) (s : State) :
    namePayload o (FrameBody.name version text).payload s =
      if newerName { text := printableText text, version := version, origin := o } s.names.newest = true then
        s.setNames { s.names with pendingName := some { text := printableText text, version := version, origin := o } }
      else s := by
  have hversion : halfOf (byteAt (FrameBody.name version text).payload 0) (byteAt (FrameBody.name version text).payload 1) = version :=
    halfOf_bytes version
  have htext : textAt (FrameBody.name version text).payload 2 = text := textAt_payload _ _ text
  rw [namePayload, hversion, htext]

/-- Settles O42. -/
theorem nameFrameBecomesPending : Obligations.NameFrameBecomesPending := by
  intro f last version text s h hknown hbody n k
  have hnewest : s.names.newest = k := by
    cases hpending : s.names.pendingName with
    | none => exact (NameStore.newest_of_no_pending hpending).trans (by simp only [k, hpending])
    | some p => exact (NameStore.newest_of_pending hpending).trans (by simp only [k, hpending])
  have hexec := (exec_nameFrame h.running last).trans (congrArg _ (h.known hknown))
  rw [hbody] at hexec
  have hname : handOn (FrameBody.name version text).kindCode f.origin (FrameBody.name version text).payload (heardState s f.origin) =
      if newerName n k = true then (heardState s f.origin).setNames { s.names with pendingName := some n }
      else heardState s f.origin := by
    rw [← hnewest]
    exact namePayload_eq f.origin version text (heardState s f.origin)
  rw [hname] at hexec
  by_cases hnew : newerName n k = true
  · rw [if_pos hnew] at hexec
    refine ⟨_, hexec, ?_, heardState_self h.sender, rfl, rfl, rfl, rfl, rfl, rfl, rfl, rfl, rfl, rfl, rfl, rfl, rfl⟩
    rw [if_pos hnew]
    rfl
  · rw [if_neg hnew] at hexec
    refine ⟨_, hexec, ?_, heardState_self h.sender, rfl, rfl, rfl, rfl, rfl, rfl, rfl, rfl, rfl, rfl, rfl, rfl, rfl⟩
    rw [if_neg hnew]
    rfl

theorem levelOfCode_code (level : QuietLevel) : levelOfCode level.code = some level := by cases level <;> rfl

theorem levelOfCode_none {b : Byte} (h : 3 < b.toNat) : levelOfCode b = none := by
  have hne (n : Byte) (hn : n.toNat ≤ 3) : b ≠ n := fun heq => by rw [heq] at h; omega
  rw [levelOfCode, if_neg (hne 0 (by decide)), if_neg (hne 1 (by decide)), if_neg (hne 2 (by decide)), if_neg (hne 3 (by decide))]

/-- R127, R128: what a PRESENCE frame that a station sends leaves. -/
theorem takePresence_eq (o : Byte) (level : QuietLevel) (fp : Half) (s : State) : takePresence o level fp s =
    let told := updatePeer o (fun p =>
      { p with level := level, deadline := some (s.clock.stationTime + BitVec.ofNat 32 (150 * level.period)),
               fingerprint := some fp, fingerprintMatch := some (decide (fp = s.settings.fingerprint)) }) s
    if fp ≠ s.settings.fingerprint ∧ (s.peer o).fingerprintMatch ≠ some false then
      told.setPort (portWith ⟨.configMismatch, s.clock.stationTime, o, hiByte fp, loByte fp⟩ told.port)
    else told := by
  have hafter : s.clock.after (3 * level.period) = s.clock.stationTime + BitVec.ofNat 32 (150 * level.period) := by
    rw [Clock.after, show 3 * level.period * Config.intervalsPerSecond = 150 * level.period by
      simp only [Config.intervalsPerSecond]; omega]
  have hclock (f : Peer → Peer) : (updatePeer o f s).clock = s.clock := by simp
  rw [takePresence, hafter]
  dsimp only
  rw [postEvent_eq, hclock]
  simp only [beq_eq_decide]

theorem updatePeer_of_station {o : Byte} (ho : isStation o = true) (f : Peer → Peer) (s : State) :
    updatePeer o f s = s.setPeers (s.peers.setIfInBounds (o.toNat - 1) (f (s.peer o))) := if_pos ho

/-- Settles O41. -/
theorem presenceFrameSetsThePeer : Obligations.PresenceFrameSetsThePeer := by
  refine ⟨?_, fun origin mark level hi lo last s h hlevel => ?_⟩
  · intro f last level fp s h hknown hbody hroom news
    have hexec := (exec_presenceFrame h.running last).trans (congrArg _ (h.known hknown))
    rw [hbody] at hexec
    have hpayload : handOn (FrameBody.presence level fp).kindCode f.origin (FrameBody.presence level fp).payload
        (heardState s f.origin) = takePresence f.origin level fp (heardState s f.origin) := by
      show presencePayload _ _ _ = _
      rw [presencePayload, show byteAt (FrameBody.presence level fp).payload 0 = level.code from rfl, levelOfCode_code]
      exact congrArg (takePresence f.origin level · _) (halfOf_bytes fp)
    rw [hpayload, takePresence_eq] at hexec
    have hpeer (p : Byte) := updatePeer_spec f.origin p (fun p =>
      { p with level := level, deadline := some ((heardState s f.origin).clock.stationTime + BitVec.ofNat 32 (150 * level.period)),
               fingerprint := some fp, fingerprintMatch := some (decide (fp = (heardState s f.origin).settings.fingerprint)) })
      (heardState s f.origin)
    have hself := hpeer f.origin
    rw [if_pos ⟨rfl, h.sender⟩, heardState_self h.sender] at hself
    have hother (p : Byte) (hp : p ≠ f.origin) := (hpeer p).trans ((if_neg fun hh => hp hh.1).trans (heardState_other h.sender hp))
    have hnews : (fp ≠ (heardState s f.origin).settings.fingerprint ∧ ((heardState s f.origin).peer f.origin).fingerprintMatch ≠ some false)
        ↔ news := by
      rw [heardState_self h.sender]
      rfl
    rw [updatePeer_of_station h.sender] at hself hother hexec
    by_cases hcase : news
    · dsimp only at hexec
      rw [if_pos (hnews.2 hcase), portWith_of_room (by exact hroom)] at hexec
      exact ⟨_, hexec, hself, fun _ => rfl, fun hnot => absurd hcase hnot, hother, rfl, sameGround_heardState s f.origin, rfl, rfl, rfl,
        rfl, rfl, rfl⟩
    · dsimp only at hexec
      rw [if_neg fun hh => hcase (hnews.1 hh)] at hexec
      exact ⟨_, hexec, hself, fun hh => absurd hh hcase, fun _ => rfl, hother, rfl, sameGround_heardState s f.origin, rfl, rfl, rfl,
        rfl, rfl, rfl⟩
  · refine (exec_presenceFrame h.running last).trans (congrArg _ ((h.received rfl).trans ?_))
    show presencePayload _ _ _ = _
    rw [presencePayload, show byteAt [level, hi, lo] 0 = level from rfl, levelOfCode_none hlevel]
    rfl

end Sys2Proof.Machine
end
section
/-! CLAIM frames for a claim that is held, stale, outside or malformed (R6, R8 to R10), and RELEASE frames (R11). -/

namespace Sys2Proof.Machine

/-! ### The entry that counts -/

theorem held_of_countsAsNone {s : State} {k : Byte × Byte} (h : countsAsNone s k) :
    ((s.entry k).filter fun e => !e.countsAsAbsent) = none := by
  cases he : s.entry k with
  | none => rfl
  | some e =>
    obtain ⟨hstate, hcause⟩ := h e he
    rw [Option.filter_eq_none_iff]
    rintro x hx
    rw [← Option.some.inj hx, Entry.countsAsAbsent, hstate, hcause]
    decide

theorem held_of_entry {s : State} {k : Byte × Byte} {e : Entry} (he : s.entry k = some e)
    (h : e.state = .ending → e.endCause ≠ some .restarted) : ((s.entry k).filter fun e => !e.countsAsAbsent) = some e := by
  have hcounts : e.countsAsAbsent = false := by
    rw [Entry.countsAsAbsent, Bool.and_eq_false_iff]
    by_cases hstate : e.state = .ending
    · exact .inr (beq_false_of_ne (h hstate))
    · exact .inl (beq_false_of_ne hstate)
  rw [he, Option.filter_some, hcounts]
  rfl

/-! ### CLAIM frames -/

theorem coveredByLastEnded_iff (s : State) (o n : Byte) : coveredByLastEnded s o n = true ↔
    ∃ l, (s.peer o).lastEnded = some l ∧ (n = l ∨ olderNumber n l = true) := by
  rw [coveredByLastEnded]
  cases (s.peer o).lastEnded with
  | none => simp
  | some last => simp [staleNumber_iff]

theorem takeClaim_live {o n : Byte} {cls : ClaimClass} {areas label : Byte} {k : Nat} {s : State} {e : Entry}
    (he : s.entry (o, n) = some e) (hlive : e.state ≠ .ending) :
    takeClaim o n cls areas label k s = refreshEntry e cls areas label k s := by
  rw [takeClaim, held_of_entry he fun h => absurd h hlive]
  exact if_pos (live_iff.2 hlive)

theorem takeClaim_ended {o n : Byte} {cls : ClaimClass} {areas label : Byte} {k : Nat} {s : State} {e : Entry}
    (he : s.entry (o, n) = some e) (hending : e.state = .ending) (hcause : e.endCause ≠ some .restarted) :
    takeClaim o n cls areas label k s = countStale s := by
  rw [takeClaim, held_of_entry he fun _ => hcause]
  exact if_neg fun h => live_iff.1 h hending

theorem takeClaim_none {o n : Byte} {cls : ClaimClass} {areas label : Byte} {k : Nat} {s : State}
    (h : countsAsNone s (o, n)) : takeClaim o n cls areas label k s =
      if coveredByLastEnded s o n then countStale s else considerClaim o n cls areas label k s := by
  rw [takeClaim, held_of_countsAsNone h]

/-- R8: a refresh writes the refresh fields of the entry and posts a first mismatch. -/
theorem refreshEntry_eq (e : Entry) (cls : ClaimClass) (areas label : Byte) (k : Nat) (s : State) :
    refreshEntry e cls areas label k s =
      (s.setClaims { s.claims with entries := s.claims.entries.map fun x =>
        if x.key = e.key then
          { x with lastRefresh := some s.clock.stationTime, refreshCount := k,
                   mismatchReported := x.mismatchReported || mismatchMask e cls areas label != 0 }
        else x }).setPort
      (if mismatchMask e cls areas label ≠ 0 ∧ e.mismatchReported = false then
        portWith ⟨.claimMismatch, s.clock.stationTime, e.origin, e.number, mismatchMask e cls areas label⟩ s.port
       else s.port) := by
  rw [refreshEntry, updateEntry_eq]
  dsimp only
  rw [postEvent_eq]
  split
  · rfl
  · rfl

theorem classOfCode_code (cls : ClaimClass) : classOfCode cls.code = some cls := by cases cls <;> rfl

theorem classOfCode_none {b : Byte} (h : 3 < b.toNat) : classOfCode b = none := by
  have hne (n : Byte) (hn : n.toNat ≤ 3) : b ≠ n := fun heq => by rw [heq] at h; omega
  rw [classOfCode, if_neg (hne 0 (by decide)), if_neg (hne 1 (by decide)), if_neg (hne 2 (by decide)), if_neg (hne 3 (by decide))]

/-- R6: a CLAIM frame that a station sends passes the payload check. -/
theorem claimPayload_eq {label : Byte} {k : Nat} (hlabel : label.toNat ≤ 7) (hk : k ≤ 255) (o n : Byte) (cls : ClaimClass)
    (areas : Byte) (s : State) :
    claimPayload o (FrameBody.claim n cls areas label k).payload s = takeClaim o n cls areas label k s := by
  rw [claimPayload, show byteAt (FrameBody.claim n cls areas label k).payload 1 = cls.code from rfl, classOfCode_code]
  refine (if_neg (Nat.not_lt.2 hlabel)).trans ?_
  exact congrArg (takeClaim o n cls areas label · s) (ofNat_toNat_of_le hk)

theorem claimPayload_malformed {o n cls areas label k : Byte} {s : State} (h : 3 < cls.toNat ∨ 7 < label.toNat) :
    claimPayload o [n, cls, areas, label, k] s = countMalformed s := by
  rw [claimPayload, show byteAt [n, cls, areas, label, k] 1 = cls from rfl]
  rcases h with h | h
  · rw [classOfCode_none h]
  · split
    · rfl
    · exact if_pos h

/-- The last character of a CLAIM frame of a known sender hands its claim to the Claim Table. -/
theorem Completes.exec_claim {s : State} {f : Frame} {last n : Byte} {cls : ClaimClass} {areas label : Byte} {k : Nat}
    (h : Completes s f last) (hknown : knownSender s f) (hbody : f.body = .claim n cls areas label k) (hk : k ≤ 255)
    (hlabel : label.toNat ≤ 7) :
    exec (.claimFrame last) s = .next (takeClaim f.origin n cls areas label k (heardState s f.origin)) := by
  refine (exec_claimFrame h.running last).trans (congrArg _ ((h.known hknown).trans ?_))
  rw [hbody]
  exact claimPayload_eq hlabel hk _ _ _ _ _

/-- Settles O36, by the four outcomes of `takeClaim` on the state in which the sender is heard. -/
theorem claimFrameOfAKnownClaim : Obligations.ClaimFrameOfAKnownClaim := by
  refine ⟨fun f last n cls areas label k e s h hknown hbody hk hlabel he hlive hroom => ?_,
    fun f last n cls areas label k s h hknown hbody hk hlabel => ?_, fun origin mark n cls areas label k last s h hbad => ?_⟩
  · intro mask
    have hexec := (h.exec_claim hknown hbody hk hlabel).trans (congrArg _ (takeClaim_live (s := heardState s f.origin) he hlive))
    rw [refreshEntry_eq, entry_key he, show e.origin = f.origin from congrArg Prod.fst (entry_key he),
      show e.number = n from congrArg Prod.snd (entry_key he), show mismatchMask e cls areas label = mask from rfl] at hexec
    refine ⟨_, hexec, rfl, ?_, heardState_self h.sender, fun p hp => heardState_other h.sender hp, rfl,
      sameGround_heardState s f.origin, rfl, rfl, rfl, rfl, rfl⟩
    show ite _ _ _ = _
    by_cases hnews : mask ≠ 0 ∧ e.mismatchReported = false
    · rw [if_pos hnews, if_pos hnews]
      exact portWith_of_room hroom
    · rw [if_neg hnews, if_neg hnews, List.append_nil]
      rfl
  · intro covered keeps
    have hcovered : coveredByLastEnded (heardState s f.origin) f.origin n = true ↔ covered := by
      rw [coveredByLastEnded_iff, heardState_self h.sender]
      rfl
    have hexec := h.exec_claim hknown hbody hk hlabel
    have stale (heq : takeClaim f.origin n cls areas label k (heardState s f.origin) = countStale (heardState s f.origin)) :
        keeps { s.claims with stale := plusOne s.claims.stale } :=
      ⟨_, hexec.trans (congrArg _ heq), rfl, heardState_self h.sender, rfl, sameGround_heardState s f.origin, rfl, rfl, rfl, rfl, rfl,
        rfl⟩
    refine ⟨fun ⟨e, he, hending, hcause⟩ => stale (takeClaim_ended (s := heardState s f.origin) he hending hcause),
      fun hnone hcov => stale ?_, fun hnone hcov hareas => ?_⟩
    · exact (takeClaim_none (s := heardState s f.origin) hnone).trans (if_pos (hcovered.2 hcov))
    · have heq : takeClaim f.origin n cls areas label k (heardState s f.origin) = countOutside (heardState s f.origin) :=
        (takeClaim_none (s := heardState s f.origin) hnone).trans ((if_neg fun hc => hcov (hcovered.1 hc)).trans (if_pos hareas))
      exact ⟨_, hexec.trans (congrArg _ heq), rfl, heardState_self h.sender, rfl, sameGround_heardState s f.origin, rfl, rfl, rfl, rfl,
        rfl, rfl⟩
  · refine (exec_claimFrame h.running last).trans (congrArg _ ((h.received rfl).trans ?_))
    exact claimPayload_malformed hbad

/-! ### RELEASE frames -/

theorem releasePayload_eq {i : Nat} (hi : i ≤ 2) (o n : Byte) (s : State) :
    releasePayload o (FrameBody.release n i).payload s = takeRelease o n s := by
  refine if_neg ?_
  show ¬ 2 < (countByte i).toNat
  rw [ofNat_toNat_of_le (by omega)]
  omega

theorem takeRelease_live {o n : Byte} {s : State} {e : Entry} (he : s.entry (o, n) = some e) (hlive : e.state ≠ .ending) :
    takeRelease o n s = endEntry (o, n) .released s := by
  rw [takeRelease, held_of_entry he fun h => absurd h hlive]
  exact if_pos (live_iff.2 hlive)

theorem takeRelease_ended {o n : Byte} {s : State} {e : Entry} (he : s.entry (o, n) = some e) (hending : e.state = .ending)
    (hcause : e.endCause ≠ some .restarted) : takeRelease o n s = s := by
  rw [takeRelease, held_of_entry he fun _ => hcause]
  exact if_neg fun h => live_iff.1 h hending

theorem takeRelease_none {o n : Byte} {s : State} (h : countsAsNone s (o, n)) : takeRelease o n s = noteEnded o n s := by
  rw [takeRelease, held_of_countsAsNone h]

theorem noteEnded_of_station {o : Byte} (ho : isStation o = true) (n : Byte) (s : State) : noteEnded o n s =
    s.setPeers (s.peers.setIfInBounds (o.toNat - 1) { s.peer o with lastEnded := nextLastEnded (s.peer o).lastEnded n }) :=
  updatePeer_of_station ho _ s

/-- A number is offered to the last ended number of a sender that was just heard. -/
theorem noteEnded_heardState_self {s : State} {o : Byte} (ho : isStation o = true) (n : Byte) :
    (noteEnded o n (heardState s o)).peer o = { heardPeer s o with lastEnded := nextLastEnded (s.peer o).lastEnded n } := by
  rw [noteEnded_spec, if_pos ⟨rfl, ho⟩, heardState_self ho]
  rfl

/-- Settles O39, by the three outcomes of `takeRelease` on the state in which the sender is heard. -/
theorem releaseFrameEndsTheEntry : Obligations.ReleaseFrameEndsTheEntry := by
  refine ⟨fun f last n i s h hknown hbody hi hd => ?_, fun origin mark n index last s h hbad => ?_⟩
  · have hexec : exec (.releaseFrame last) s = .next (takeRelease f.origin n (heardState s f.origin)) := by
      refine (exec_releaseFrame h.running last).trans (congrArg _ ((h.known hknown).trans ?_))
      rw [hbody]
      exact releasePayload_eq hi _ _ _
    refine ⟨fun e he hremote hlive hslot => ?_, fun e he hending hcause => ?_, fun hnone => ?_⟩
    · have heq := takeRelease_live (s := heardState s f.origin) he hlive
      have hself := endEntry_entry_self (s := heardState s f.origin) (cause := .released) hd he hlive hslot
      have hpeer := endEntry_remote_peers (s := heardState s f.origin) (cause := .released) he hlive hremote nofun f.origin
      have hpresence := endEntry_presence (s := heardState s f.origin) (cause := .released) he hlive
      rw [entry_ended_remote hremote] at hself
      rw [show e.origin = f.origin from congrArg Prod.fst (entry_key he), show e.number = n from congrArg Prod.snd (entry_key he),
        noteEnded_heardState_self h.sender] at hpeer
      exact ⟨_, hexec.trans (congrArg _ heq), hself, hpeer, congrArg Presence.level hpresence, congrArg Presence.downshiftTimer hpresence,
        sameGround_trans (sameGround_heardState s f.origin) (sameGround_endEntry _ _ _),
        endEntry_remote_cues (s := heardState s f.origin) he hlive hremote⟩
    · have heq := takeRelease_ended (s := heardState s f.origin) he hending hcause
      exact ⟨_, hexec.trans (congrArg _ heq), rfl, heardState_self h.sender, rfl, sameGround_heardState s f.origin, rfl, rfl, rfl, rfl,
        rfl⟩
    · have heq := takeRelease_none (s := heardState s f.origin) hnone
      have hpeer := noteEnded_heardState_self (s := s) h.sender n
      rw [noteEnded_of_station h.sender] at heq hpeer
      exact ⟨_, hexec.trans (congrArg _ heq), rfl, hpeer, rfl, sameGround_heardState s f.origin, rfl, rfl, rfl, rfl, rfl⟩
  · exact (exec_releaseFrame h.running last).trans (congrArg _ ((h.received rfl).trans (if_pos hbad)))

end Sys2Proof.Machine
end
section
/-! CLAIM frames that make an entry: while the table has room, and in a full one (R10, R16, R18, R41). -/

namespace Sys2Proof.Machine

/-- A new remote claim takes the last place of a table in which its place was made (R10). -/
def remoteMade (e : Entry) (s : State) : State := select (activity (admitEntry e s))

/-- R10: a newcomer for which a place is found, the entries of its own identity freed first (R1, R7). -/
theorem considerClaim_made {areas : Byte} {s t : State} {o n : Byte} {cls : ClaimClass} {label : Byte} {k : Nat}
    (hareas : areas &&& s.settings.served ≠ 0)
    (hmake : makeRoom (fun v => v.score < (newRemoteEntry s o n cls areas label k).score) (removeEntry (o, n) s) = some t) :
    considerClaim o n cls areas label k s = remoteMade (newRemoteEntry s o n cls areas label k) t := by
  have hmake' : makeRoom (fun v => v.score < (newRemoteEntry (removeEntry (o, n) s) o n cls areas label k).score)
    (removeEntry (o, n) s) = some t := hmake
  rw [considerClaim, if_neg hareas]
  dsimp only
  rw [hmake']
  rfl

theorem considerClaim_refused {areas : Byte} {s : State} {o n : Byte} {cls : ClaimClass} {label : Byte} {k : Nat}
    (hareas : areas &&& s.settings.served ≠ 0)
    (hmake : makeRoom (fun v => v.score < (newRemoteEntry s o n cls areas label k).score) (removeEntry (o, n) s) = none) :
    considerClaim o n cls areas label k s = postEvent .tableFull o n cls.code (removeEntry (o, n) s) := by
  have hmake' : makeRoom (fun v => v.score < (newRemoteEntry (removeEntry (o, n) s) o n cls areas label k).score)
    (removeEntry (o, n) s) = none := hmake
  rw [considerClaim, if_neg hareas]
  dsimp only
  rw [hmake']

theorem newRemoteEntry_eq {areas : Byte} {k : Nat} {s : State} (hk : k ≤ 255) (hareas : areas &&& s.settings.served ≠ 0) (o n : Byte)
    (cls : ClaimClass) (label : Byte) : newRemoteEntry s o n cls areas label k =
      { origin := o, number := n, isLocal := false, source := none, cls := cls, areas := areas, label := label,
        candidate := s.settings.feedOf o != 0, state := .waiting, age := 2 * k,
        lastRefresh := some s.clock.stationTime, demotions := 0, stagesFired := 0,
        score := s.settings.score cls (sharedAreas areas s.settings.served) (2 * k) false 0, endCause := none,
        endingSince := none, repeatsLeft := none, refreshCount := k, mismatchReported := false,
        madeSecond := s.clock.secondCount, nextRefresh := 0 } := by
  have hage : min (2 * k) 65535 = 2 * k := Nat.min_eq_left (by omega)
  have hcandidate : s.settings.isCandidate areas o = (s.settings.feedOf o != 0) := by
    rw [Settings.isCandidate, bne_iff_ne.2 hareas, Bool.true_and]
  rw [newRemoteEntry, hage, hcandidate]

section
variable {e : Entry} {s : State}

theorem remoteMade_keys (e : Entry) (s : State) : (remoteMade e s).keys = s.keys ++ [e.key] := by
  rw [remoteMade, keys_select, keys_congr (activity_entries _), keys_admitEntry]

theorem distinctClaims_admitEntry (hd : distinctClaims s) (hfresh : s.entry e.key = none) : distinctClaims (admitEntry e s) := by
  rw [distinctClaims_iff]
  show (admitEntry e s).keys.Nodup
  rw [keys_admitEntry]
  refine ((distinctClaims_iff s).1 hd).append (List.nodup_singleton _) ?_
  exact List.disjoint_singleton.2 (entry_eq_none.1 hfresh)

/-- An entry of the table with the newcomer in it is found after the selection run, its state aside. -/
theorem remoteMade_entry (hd : distinctClaims s) (hfresh : s.entry e.key = none) {k : Byte × Byte} {x : Entry}
    (hx : (admitEntry e s).entry k = some x) :
    ∃ st, (remoteMade e s).entry k = some { x with state := st } ∧ (MayGoOnAir x st ∨ st = .waiting) := by
  obtain ⟨st, hfound, hmay⟩ := select_entry
    (distinctClaims_congr (keys_congr (activity_entries _)) (distinctClaims_admitEntry hd hfresh)) ((activity_entry _ k).trans hx)
  exact ⟨st, hfound, hmay.imp_right And.right⟩

theorem admitEntry_self (hfresh : s.entry e.key = none) : (admitEntry e s).entry e.key = some e := by
  rw [admitEntry_spec, hfresh]
  exact if_pos rfl

theorem admitEntry_held {k : Byte × Byte} {x : Entry} (hx : s.entry k = some x) : (admitEntry e s).entry k = some x := by
  rw [admitEntry_spec, hx]

theorem remoteMade_entry_none {k : Byte × Byte} (hk : s.entry k = none) (hne : e.key ≠ k) : (remoteMade e s).entry k = none := by
  refine select_entry_none ((activity_entry _ k).trans ?_)
  rw [admitEntry_spec, hk]
  exact if_neg hne

theorem remoteMade_presence (e : Entry) (s : State) : (remoteMade e s).presence = presenceActive := select_presence (activity_spec _)

theorem remoteMade_peers (e : Entry) (s : State) : (remoteMade e s).peers = s.peers := by simp [remoteMade, admitEntry]

theorem remoteMade_cues (e : Entry) (s : State) : (remoteMade e s).cues = s.cues := by simp [remoteMade, admitEntry]

theorem sameGround_remoteMade (e : Entry) (s : State) : sameGround s (remoteMade e s) := by
  unfold sameGround
  simp [remoteMade, admitEntry]

theorem remoteMade_claims (e : Entry) (s : State) :
    (remoteMade e s).claims = { s.claims with entries := (remoteMade e s).claims.entries } := by
  refine (select_claims _).trans ?_
  rw [(activeFrom_activity _).claims]
  rfl

/-- With the slot empty and no other candidate, a candidate goes on air (R46). -/
theorem remoteMade_onAir (hfresh : s.entry e.key = none) (hair : s.selector.onAir = none)
    (hwaiting : e.state = .waiting) (hcandidate : e.candidate = true) (hothers : ∀ x ∈ s.claims.entries, x.candidate = false) :
    (remoteMade e s).entry e.key = some { e with state := .onAir } ∧ (remoteMade e s).selector.onAir = some e.key := by
  have hwaits : (s.claims.entries ++ [e]).filter (fun x => x.state == .waiting && x.candidate) = [e] := by
    rw [List.filter_append, List.filter_eq_nil_iff.2 fun x hx => by rw [hothers x hx, Bool.and_false]; decide,
      List.filter_singleton, hwaiting, hcandidate]
    rfl
  have hbest : (activity (admitEntry e s)).bestWaiting = some e := by
    rw [bestWaiting_congr (activity_entries _), bestWaiting_eq]
    show best ((s.claims.entries ++ [e]).filter _) = _
    rw [hwaits]
    obtain ⟨x, hx⟩ := exists_best (List.cons_ne_nil e [])
    rw [hx, List.mem_singleton.1 (best_mem hx)]
  have hselector : (activity (admitEntry e s)).selector.onAir = none :=
    (congrArg Selector.onAir (activeFrom_activity _).selector).trans hair
  rw [remoteMade, select_fills hselector hbest, onAirChange_onAir, onAirChange_entry, setEntryState_entry, if_pos rfl,
    activity_entry, admitEntry_self hfresh]
  exact ⟨rfl, rfl⟩

end

theorem removeEntry_of_none {k : Byte × Byte} {s : State} (h : s.entry k = none) : removeEntry k s = s := by
  have hall : s.claims.entries.filter (fun e => e.key != k) = s.claims.entries := by
    refine List.filter_eq_self.2 fun e he => bne_iff_ne.2 fun hkey => ?_
    exact entry_eq_none.1 h (List.mem_map.2 ⟨e, he, hkey⟩)
  rw [removeEntry, hall, setEntries_self]

/-- The number of a frame is not covered by the sender's last ended number. -/
abbrev uncovered (s : State) (o n : Byte) : Prop := ∀ l, (s.peer o).lastEnded = some l → n ≠ l ∧ olderNumber n l = false

/-- A CLAIM frame that matches no entry and is not stale. -/
theorem takeClaim_new {s : State} {o n : Byte} (ho : isStation o = true) (hnone : countsAsNone s (o, n)) (hnew : uncovered s o n)
    (cls : ClaimClass) (areas label : Byte) (k : Nat) : takeClaim o n cls areas label k (heardState s o) =
      considerClaim o n cls areas label k (heardState s o) := by
  refine (takeClaim_none (s := heardState s o) hnone).trans (if_neg ?_)
  rw [coveredByLastEnded_iff, heardState_self ho]
  rintro ⟨l, hl, hcovered⟩
  obtain ⟨hne, holder⟩ := hnew l hl
  rcases hcovered with heq | hold
  · exact hne heq
  · exact absurd (holder.symm.trans hold) (by decide)

theorem peer_congr {s t : State} (h : t.peers = s.peers) (p : Byte) : t.peer p = s.peer p := by rw [State.peer, State.peer, h]

theorem sameGround_placeFound (s : State) (o : Byte) (k : Byte × Byte) : sameGround s (removeEntry k (heardState s o)) :=
  ⟨rfl, rfl, rfl, rfl, rfl, rfl⟩

/-- Settles O37. -/
theorem claimFrameMakesAnEntry : Obligations.ClaimFrameMakesAnEntry := by
  intro f last n cls areas label k s h hknown hbody hk hlabel hnone hnew rest hareas hroom hd
  have hrest : (removeEntry (f.origin, n) (heardState s f.origin)).claims.entries = rest := by
    refine List.filter_congr fun e _ => ?_
    rw [bne, beq_eq_decide, decide_not]
  have heq := considerClaim_made (s := heardState s f.origin) (o := f.origin) (n := n) (label := label) (k := k) (cls := cls) hareas
    (makeRoom_of_room (by rw [hrest]; exact hroom))
  have hexec := (h.exec_claim hknown hbody hk hlabel).trans
    (congrArg _ ((takeClaim_new h.sender hnone hnew cls areas label k).trans heq))
  have hnewEntry := newRemoteEntry_eq (s := heardState s f.origin) hk hareas f.origin n cls label
  have hkey : (newRemoteEntry (heardState s f.origin) f.origin n cls areas label k).key = (f.origin, n) := rfl
  have hwaiting : (newRemoteEntry (heardState s f.origin) f.origin n cls areas label k).state = .waiting := rfl
  have hgone := removeEntry_entry_self (f.origin, n) (heardState s f.origin)
  have hdistinct : distinctClaims (removeEntry (f.origin, n) (heardState s f.origin)) :=
    distinctClaims_removeEntry _ (s := heardState s f.origin) hd
  generalize newRemoteEntry (heardState s f.origin) f.origin n cls areas label k = e at hexec hnewEntry hkey hwaiting
  have hfresh : (removeEntry (f.origin, n) (heardState s f.origin)).entry e.key = none := by
    rw [hkey]
    exact hgone
  obtain ⟨st, hfound, hmay⟩ := remoteMade_entry hdistinct hfresh (admitEntry_self hfresh)
  refine ⟨_, { e with state := st }, hexec, ?_, hkey ▸ hfound, ?_, ?_, ?_, ?_, remoteMade_presence _ _, ?_, ?_, ?_, ?_, ?_, ?_⟩
  · rw [← hrest, ← hkey]
    exact remoteMade_keys e _
  · rw [hnewEntry]
    rfl
  · intro hair hcandidate hothers
    obtain ⟨hentry, hslot⟩ := remoteMade_onAir hfresh hair hwaiting hcandidate (by rw [hrest]; exact hothers)
    exact ⟨(congrArg Entry.state (Option.some.inj (hfound.symm.trans hentry)) :), hslot.trans (congrArg some hkey)⟩
  · intro hnot
    rcases hmay with (hst | ⟨-, hcandidate, -⟩) | hst
    · exact hst.trans hwaiting
    · exact absurd (hcandidate.symm.trans hnot) (by decide)
    · exact hst
  · intro x hx
    obtain ⟨st', hfound', -⟩ := remoteMade_entry hdistinct hfresh (admitEntry_held (entry_of_mem hdistinct (hrest ▸ hx)))
    exact ⟨_, hfound', rfl⟩
  · exact (peer_congr (remoteMade_peers _ _) _).trans (heardState_self h.sender)
  · exact sameGround_trans (sameGround_placeFound s f.origin _) (sameGround_remoteMade e _)
  · exact remoteMade_cues _ _
  · rw [remoteMade_claims]
    rfl
  · rw [remoteMade_claims]
    rfl
  · rw [remoteMade_claims]
    rfl

/-- Settles O38: the victim of R16 makes the place, or TABLE_FULL is posted. -/
theorem fullTableWeighsTheNewcomer : Obligations.FullTableWeighsTheNewcomer := by
  intro f last n cls areas label k v s h hknown hbody hk hlabel hnone hnew hareas hfull hd score evicted refused
  have hcounts : countsAsNone s (f.origin, n) := fun e he => absurd (hnone.symm.trans he) nofun
  have hexec := (h.exec_claim hknown hbody hk hlabel).trans
    (congrArg _ (takeClaim_new h.sender hcounts hnew cls areas label k))
  have hscore : (newRemoteEntry (heardState s f.origin) f.origin n cls areas label k).score = score := by
    rw [newRemoteEntry_eq (s := heardState s f.origin) hk hareas]
    rfl
  have hsame : removeEntry (f.origin, n) (heardState s f.origin) = heardState s f.origin :=
    removeEntry_of_none (s := heardState s f.origin) hnone
  have evict (hv : v ∈ s.claims.entries) (hmake : makeRoom (fun v => v.score < score) (heardState s f.origin) =
      some (removeEntry v.key (heardState s f.origin))) : evicted := by
    have heq := considerClaim_made (s := heardState s f.origin) (o := f.origin) (n := n) (label := label) (k := k) (cls := cls) hareas
      (by rw [hscore, hsame]; exact hmake)
    have hne : (f.origin, n) ≠ v.key := fun hkey =>
      entry_eq_none.1 hnone (hkey ▸ List.mem_map_of_mem hv)
    refine ⟨_, hexec.trans (congrArg _ heq), remoteMade_entry_none (removeEntry_entry_self _ _) hne, ?_, ?_, fun p hp => ?_, ?_, ?_⟩
    · refine (remoteMade_keys _ _).trans (congrArg (List.map Entry.key · ++ _) (List.filter_congr fun e _ => ?_))
      rw [bne, beq_eq_decide, decide_not]
    · exact (peer_congr (remoteMade_peers _ _) _).trans (heardState_self h.sender)
    · exact (peer_congr (remoteMade_peers _ _) _).trans (heardState_other h.sender hp)
    · exact sameGround_trans (sameGround_placeFound s f.origin _) (sameGround_remoteMade _ _)
    · exact remoteMade_cues _ _
  have refuse (hmake : makeRoom (fun v => v.score < score) (heardState s f.origin) = none) : refused := by
    have heq := considerClaim_refused (s := heardState s f.origin) (o := f.origin) (n := n) (label := label) (k := k) (cls := cls) hareas
      (by rw [hscore, hsame]; exact hmake)
    rw [hsame, postEvent_eq] at heq
    refine ⟨_, hexec.trans (congrArg _ heq), rfl, rfl, rfl, heardState_self h.sender, fun p hp => heardState_other h.sender hp,
      sameGround_heardState s f.origin, rfl, rfl, rfl⟩
  refine ⟨fun hv => evict hv.held ?_, fun hv hlt => evict hv.held ?_, fun hv hle => refuse ?_, fun hall => refuse ?_⟩
  · exact makeRoom_of_ending hfull ((hv.congr (t := heardState s f.origin) rfl rfl).found hd)
  · obtain ⟨hending, hwaiting⟩ := WaitingVictim.found (s := heardState s f.origin) hd (hv.congr rfl)
    rw [makeRoom_of_waiting (s := heardState s f.origin) hfull hending hwaiting, if_pos (decide_eq_true hlt)]
  · obtain ⟨hending, hwaiting⟩ := WaitingVictim.found (s := heardState s f.origin) hd (hv.congr rfl)
    rw [makeRoom_of_waiting (s := heardState s f.origin) hfull hending hwaiting, if_neg]
    exact fun hlt => absurd (of_decide_eq_true hlt) (Nat.not_lt.2 hle)
  · exact makeRoom_of_noPlace (s := heardState s f.origin) ⟨hfull, hall⟩

end Sys2Proof.Machine
end
section
/-! What an ending posts: with room for a PRESENCE in the outgoing queue, ON_AIR_CHANGED events alone (R14, R51, R56); what it tells
the cue sources (R74, R80); and the LAPSE frames (R12). -/

namespace Sys2Proof.Machine

/-! ### Endings and selection runs with room for a PRESENCE -/

/-- A PRESENCE can be offered to this queue without a drop: a place is free, or a PRESENCE is held. -/
def takesPresence (q : List Frame) : Prop := q.length < 8 ∨ ∃ f ∈ q, f.isPresence = true

theorem takesPresence_of_mem {q : List Frame} {f : Frame} (h : f ∈ q) (hf : f.isPresence = true) : takesPresence q := .inr ⟨f, h, hf⟩

/-- A PRESENCE that is offered to such a queue posts nothing and is in it afterwards. -/
theorem offer_presence_quiet {s : State} (h : takesPresence s.tx.queue) (level : QuietLevel) (fp : Half) :
    (offer (.presence level fp) s).port = s.port ∧ ∃ f ∈ (offer (.presence level fp) s).tx.queue, f.isPresence = true := by
  rcases offer_spec (.presence level fp) s with heq | ⟨n, c, a, l, k, hbody, -, -⟩ | ⟨held, hfind, hmoves⟩
  · have hroom : s.tx.queue.length < 8 ∨ ∃ f ∈ s.tx.queue, f.isPresence = true := h
    rcases hroom with hroom | ⟨f, hf, hpresence⟩
    · rw [heq]
      refine ⟨offerFrame_port hroom, ownFrame s (.presence level fp), ?_, rfl⟩
      rw [offerFrame_queue_of_room hroom]
      exact mem_insertFrame.2 (.inl rfl)
    · obtain ⟨held, hfind⟩ := Option.isSome_iff_exists.1 (List.find?_isSome.2 ⟨f, hf, hpresence⟩)
      simp only [offer, hfind]
      split
      · exact ⟨rfl, f, hf, hpresence⟩
      · exact ⟨rfl, { f with body := .presence level fp },
          List.mem_map.2 ⟨f, hf, if_pos hpresence⟩, rfl⟩
  · exact absurd hbody nofun
  · have hheld := List.mem_of_find?_eq_some hfind
    have hpresence : held.isPresence = true := List.find?_some hfind
    rcases hmoves with ⟨-, heq⟩ | ⟨-, heq⟩ <;> rw [heq]
    · exact ⟨rfl, held, hheld, hpresence⟩
    · exact ⟨rfl, { held with body := .presence level fp }, List.mem_map.2 ⟨held, hheld, if_pos hpresence⟩, rfl⟩

theorem activity_quiet {s : State} (h : takesPresence s.tx.queue) :
    (activity s).port = s.port ∧ takesPresence (activity s).tx.queue := by
  obtain ⟨hport, f, hf, hpresence⟩ := offer_presence_quiet
    (s := (s.setPresence { s.presence with level := .active, downshiftTimer := 0, downshiftDue := false, periodicDue := false }).setPresence
      presenceActive) h .active s.settings.fingerprint
  exact ⟨hport, takesPresence_of_mem hf hpresence⟩

/-- From `s` to `t` at most `n` events are posted, ON_AIR_CHANGED all of them, and a PRESENCE still finds its place. -/
structure Announces (n : Nat) (s t : State) : Prop where
  takes : takesPresence t.tx.queue
  posted : s.port.events.length + n ≤ 16 → ∃ changes : List EventRecord, changes.length ≤ n
    ∧ (∀ r ∈ changes, r.kind = .onAirChanged) ∧ t.port.events = s.port.events ++ changes

theorem Announces.of_same {s t : State} (h : takesPresence t.tx.queue) (hport : t.port = s.port) : Announces 0 s t :=
  ⟨h, fun _ => ⟨[], Nat.le_refl 0, fun _ hr => absurd hr List.not_mem_nil, by rw [hport, List.append_nil]⟩⟩

theorem Announces.trans {m n : Nat} {s t u : State} (h : Announces m s t) (h' : Announces n t u) : Announces (m + n) s u where
  takes := h'.takes
  posted hroom := by
    obtain ⟨l, hlength, hl, hevents⟩ := h.posted (by omega)
    obtain ⟨l', hlength', hl', hevents'⟩ := h'.posted (by rw [hevents, List.length_append]; omega)
    refine ⟨l ++ l', by rw [List.length_append]; omega, fun r hr => (List.mem_append.1 hr).elim (hl r) (hl' r), ?_⟩
    rw [hevents', hevents, List.append_assoc]

theorem Announces.mono {m n : Nat} {s t : State} (h : Announces m s t) (hle : m ≤ n) : Announces n s t where
  takes := h.takes
  posted hroom := by
    obtain ⟨l, hlength, hl⟩ := h.posted (by omega)
    exact ⟨l, by omega, hl⟩

theorem onAirChange_quiet {old : Byte} {new : Option Entry} {s : State} (h : takesPresence s.tx.queue) :
    (onAirChange old new s).port = portWith (changeEvent s.clock.stationTime old new) s.port
    ∧ takesPresence (onAirChange old new s).tx.queue := by
  unfold onAirChange
  dsimp only
  refine ⟨?_, (activity_quiet ?_).2⟩
  · rw [(activity_quiet ?_).1]
    · cases new <;> dsimp only <;> rw [postEvent_eq] <;> rfl
    · cases new <;> dsimp only <;> rw [postEvent_tx] <;> exact h
  · cases new <;> dsimp only <;> rw [postEvent_tx] <;> exact h

theorem announces_onAirChange {s t : State} (h : takesPresence t.tx.queue) (hsame : t.port = s.port) (old : Byte)
    (new : Option Entry) : Announces 1 s (onAirChange old new t) := by
  obtain ⟨hport, htakes⟩ := onAirChange_quiet (old := old) (new := new) h
  refine ⟨htakes, fun hroom => ⟨[changeEvent t.clock.stationTime old new], Nat.le_refl 1, fun r hr => ?_, ?_⟩⟩
  · rw [List.mem_singleton.1 hr]
    rfl
  · rw [hport, hsame, portWith_of_room (by omega)]

theorem announces_fillSlot {s : State} (h : takesPresence s.tx.queue) (old : Byte) (changed : Bool) :
    Announces 1 s (fillSlot old changed s) := by
  unfold fillSlot
  split
  · next x _ => exact announces_onAirChange (s := s) (t := setEntryState x.key .onAir s) h rfl _ _
  · split
    · exact announces_onAirChange h rfl _ _
    · exact (Announces.of_same h rfl).mono (Nat.zero_le 1)

theorem announces_select {s : State} (h : takesPresence s.tx.queue) : Announces 1 s (select s) := by
  rcases select_spec s with heq | ⟨x, -, -, heq⟩ | ⟨k, x, y, -, -, -, -, -, heq⟩ <;> rw [heq]
  · exact (Announces.of_same h rfl).mono (Nat.zero_le 1)
  · exact announces_onAirChange (s := s) (t := setEntryState x.key .onAir s) h rfl _ _
  · exact announces_onAirChange (s := s) (t := setEntryState x.key .onAir (setEntryState y.key .waiting s)) h rfl _ _

theorem announces_refillSlot {s : State} (h : takesPresence s.tx.queue) (gone : Entry) : Announces 1 s (refillSlot gone s) := by
  unfold refillSlot
  split
  · have hempty : Announces 0 s (s.setSelector { s.selector with onAir := none }) := .of_same h rfl
    exact hempty.trans (announces_fillSlot hempty.takes _ _)
  · exact announces_select h

theorem announces_activity {s : State} (h : takesPresence s.tx.queue) : Announces 0 s (activity s) :=
  .of_same (activity_quiet h).2 (activity_quiet h).1

/-! ### What an ending tells -/

theorem tellEnding_remote_link {e : Entry} (h : e.isLocal = false) (cause : EndCause) (s : State) :
    (tellEnding e cause s).port = s.port ∧ (tellEnding e cause s).tx = s.tx ∧ (tellEnding e cause s).rx = s.rx := by
  rw [tellEnding, if_neg (by simp [h])]
  split
  · exact ⟨rfl, rfl, rfl⟩
  · unfold noteEnded updatePeer
    split <;> exact ⟨rfl, rfl, rfl⟩

theorem cueNotice_port (source : Option (Fin 5)) (cause : EndCause) (s : State) : (cueNotice source cause s).port = s.port := by
  unfold cueNotice updateChannel
  (repeat' split) <;> rfl

/-- The RELEASE of a local claim takes a free place of the queue, and nothing is posted. -/
theorem tellEnding_local_link {e : Entry} (h : e.isLocal = true) (cause : EndCause) {s : State} (hroom : s.tx.queue.length < 8) :
    (tellEnding e cause s).port = s.port
    ∧ (tellEnding e cause s).tx.queue = insertFrame (ownFrame s (.release e.number 0)) s.tx.queue := by
  refine ⟨?_, ?_⟩
  · rw [tellEnding, if_pos h, cueNotice_port, offer_port hroom]
  · rw [tellEnding_tx, if_pos h, offer_release, offerFrame_queue_of_room hroom]

/-- An ending posts at most one ON_AIR_CHANGED. -/
theorem announces_endEntry_remote {k : Byte × Byte} {cause : EndCause} {s : State} {e : Entry} (he : s.entry k = some e)
    (hlive : e.state ≠ .ending) (hremote : e.isLocal = false) (h : takesPresence s.tx.queue) :
    Announces 1 s (endEntry k cause s) := by
  obtain ⟨hport, htx, -⟩ := tellEnding_remote_link hremote cause (updateEntry k (Entry.ended cause s.clock.stationTime) s)
  have htold : Announces 0 s (tellEnding e cause (updateEntry k (Entry.ended cause s.clock.stationTime) s)) :=
    .of_same (by rw [htx]; exact h) hport
  rw [endEntry_of_live he (live_iff.2 hlive)]
  exact htold.trans ((announces_activity htold.takes).trans (announces_refillSlot (announces_activity htold.takes).takes e))

theorem announces_endEntry_local {k : Byte × Byte} {cause : EndCause} {s : State} {e : Entry} (he : s.entry k = some e)
    (hlive : e.state ≠ .ending) (hlocal : e.isLocal = true) (hroom : s.tx.queue.length < 7) :
    Announces 1 s (endEntry k cause s) := by
  obtain ⟨hport, hqueue⟩ := tellEnding_local_link hlocal cause
    (s := updateEntry k (Entry.ended cause s.clock.stationTime) s) (Nat.lt_succ_of_lt hroom)
  have hlength : (tellEnding e cause (updateEntry k (Entry.ended cause s.clock.stationTime) s)).tx.queue.length < 8 := by
    rw [hqueue, length_insertFrame]
    exact Nat.succ_lt_succ hroom
  have htold : Announces 0 s (tellEnding e cause (updateEntry k (Entry.ended cause s.clock.stationTime) s)) :=
    .of_same (.inl hlength) hport
  rw [endEntry_of_live he (live_iff.2 hlive)]
  exact htold.trans ((announces_activity htold.takes).trans (announces_refillSlot (announces_activity htold.takes).takes e))

theorem announces_endEntry {k : Byte × Byte} {cause : EndCause} {s : State} {e : Entry} (he : s.entry k = some e)
    (hlive : e.state ≠ .ending) (hroom : s.tx.queue.length < 7) : Announces 1 s (endEntry k cause s) := by
  cases hlocal : e.isLocal with
  | true => exact announces_endEntry_local he hlive hlocal hroom
  | false => exact announces_endEntry_remote he hlive hlocal (.inl (Nat.lt_succ_of_lt hroom))

/-- One more event behind what an act announced. -/
theorem Announces.postedLast {n : Nat} {s t : State} (h : Announces n s t) (hroom : s.port.events.length + n < 16)
    (r : EventRecord) : postedLast s.port.events r (portWith r t.port).events := by
  obtain ⟨changes, hlength, hchanges, hevents⟩ := h.posted (Nat.le_of_lt hroom)
  refine ⟨changes, hchanges, ?_⟩
  rw [portWith_of_room (by rw [hevents, List.length_append]; omega), hevents]

theorem closeRecord_eq (stop : Time) (outcome : RunOutcome) (ch : Channel) :
    ch.closeRecord stop outcome = recordClosed stop outcome ch := by
  simp only [Channel.closeRecord, recordClosed, beq_iff_eq]

/-- R74: the ACTIVE channel of a claim that another than its cue ended is BLOCKED. -/
theorem cueNotice_channel {c : Fin 4} {cause : EndCause} {s : State} (hcause : cause ≠ .released)
    (hs : s.cues.channels[c].state = .active) : cueNotice (some c.castSucc) cause s = withChannel c
      { recordClosed s.clock.stationTime cause.outcome s.cues.channels[c] with state := .blocked, number := none, offCount := 0 } s := by
  have hc : c.castSucc.val < 4 := c.isLt
  rw [cueNotice]
  dsimp only
  rw [if_neg hcause]
  refine (dif_pos hc).trans ((if_pos hs).trans ?_)
  rw [updateChannel_eq, closeRecord_eq]
  rfl

/-- R80: the manual cue of a claim that another than its command ended is IDLE. -/
theorem cueNotice_manual {cause : EndCause} (hcause : cause ≠ .released) (s : State) :
    cueNotice (some 4) cause s = s.setCues { s.cues with manual := .idle, manualNumber := none } := by
  rw [cueNotice]
  dsimp only
  rw [if_neg hcause, dif_neg (by decide)]

theorem endEntry_local_cues {k : Byte × Byte} {cause : EndCause} {s : State} {e : Entry} (he : s.entry k = some e)
    (hlive : e.state ≠ .ending) (hlocal : e.isLocal = true) :
    (endEntry k cause s).cues = (cueNotice e.source cause s).cues := by
  rw [endEntry_of_live he (live_iff.2 hlive), refillSlot_cues, (activeFrom_activity _).cues, tellEnding, if_pos hlocal]
  exact cueNotice_cues_congr _ _ (by simp) (by simp)

/-! ### LAPSE frames -/

theorem takeLapse_live {p o n : Byte} {s : State} {e : Entry} (he : s.entry (o, n) = some e) (hlive : e.state ≠ .ending) :
    takeLapse p o n s = (endEntry (o, n) .lapsed s).setPort
      (portWith ⟨.lapseHeard, s.clock.stationTime, p, o, n⟩ (endEntry (o, n) .lapsed s).port) := by
  have hclock : (endEntry (o, n) .lapsed s).clock = s.clock := by simp
  rw [takeLapse, held_of_entry he fun h => absurd h hlive]
  refine (if_pos (live_iff.2 hlive)).trans ?_
  rw [postEvent_eq, hclock]

theorem takeLapse_ended {p o n : Byte} {s : State} {e : Entry} (he : s.entry (o, n) = some e) (hending : e.state = .ending)
    (hcause : e.endCause ≠ some .restarted) : takeLapse p o n s = s := by
  rw [takeLapse, held_of_entry he fun _ => hcause]
  exact if_neg fun h => live_iff.1 h hending

theorem takeLapse_none {p o n : Byte} {s : State} (h : countsAsNone s (o, n)) :
    takeLapse p o n s = if o = s.settings.station then s else noteEnded o n s := by
  rw [takeLapse, held_of_countsAsNone h]

/-- The last character of a LAPSE frame of a known sender hands it to the Claim Table. -/
theorem Completes.exec_lapse {s : State} {f : Frame} {last o n : Byte} (h : Completes s f last) (hknown : knownSender s f)
    (hbody : f.body = .lapse o n) (ho : isStation o = true) :
    exec (.lapseFrame last) s = .next (takeLapse f.origin o n (heardState s f.origin)) := by
  refine (exec_lapseFrame h.running last).trans (congrArg _ ((h.known hknown).trans ?_))
  rw [hbody]
  refine Eq.trans (b := lapsePayload f.origin [o, n] (heardState s f.origin)) rfl (if_neg ?_)
  show ¬ (!isStation o) = true
  rw [ho]
  decide

/-- Whoever was heard, a number that is offered to a peer's last ended number has the same effect on it. -/
theorem noteEnded_heardState {s : State} {p o : Byte} (hp : isStation p = true) (ho : isStation o = true) (n : Byte) :
    ((noteEnded o n (heardState s p)).peer o).lastEnded = nextLastEnded (s.peer o).lastEnded n := by
  have hlast : ((heardState s p).peer o).lastEnded = (s.peer o).lastEnded := by
    rw [heardState_peer hp]
    split
    · next heq => rw [heq]; rfl
    · rfl
  rw [noteEnded_spec, if_pos ⟨rfl, ho⟩, ← hlast]

/-- A local claim's ending leaves every peer as it was but the sender that was heard. -/
theorem endEntry_local_heard {s : State} {p : Byte} (hp : isStation p = true) {k : Byte × Byte} {cause : EndCause} {e : Entry}
    (he : s.entry k = some e) (hlive : e.state ≠ .ending) (hlocal : e.isLocal = true) (q : Byte) (hq : q ≠ p) :
    (endEntry k cause (heardState s p)).peer q = s.peer q :=
  (peer_congr (endEntry_local_peers (s := heardState s p) he hlive hlocal) q).trans (heardState_other hp hq)

/-- Without a candidate and with the slot empty, no selection follows an ending. -/
theorem endEntry_alone {k : Byte × Byte} {cause : EndCause} {s : State} {e : Entry} (he : s.entry k = some e)
    (hwaiting : e.state = .waiting) (hair : s.selector.onAir = none) (hothers : ∀ x ∈ s.claims.entries, x.candidate = false) :
    endEntry k cause s = endingTold k cause e s := by
  have hnone : (endingTold k cause e s).bestWaiting = none := by
    rw [bestWaiting_eq, endingTold_entries, best_eq_none, List.filter_eq_nil_iff]
    intro x hx
    obtain ⟨y, hy, rfl⟩ := List.mem_map.1 hx
    have hcandidate : (if y.key == k then Entry.ended cause s.clock.stationTime y else y).candidate = y.candidate := by
      split <;> rfl
    rw [hcandidate, hothers y hy, Bool.and_false]
    decide
  rw [endEntry_of_live he (live_iff.2 (by rw [hwaiting]; decide)), refillSlot, if_neg (by rw [hwaiting]; decide)]
  exact select_empty ((congrArg Selector.onAir (endingTold_selector k cause e s)).trans hair) hnone

theorem endingTold_port_remote {k : Byte × Byte} {cause : EndCause} {s : State} {e : Entry} (hremote : e.isLocal = false)
    (h : takesPresence s.tx.queue) : (endingTold k cause e s).port = s.port := by
  obtain ⟨hport, htx, -⟩ := tellEnding_remote_link hremote cause (updateEntry k (Entry.ended cause s.clock.stationTime) s)
  exact (activity_quiet (by rw [htx]; exact h)).1.trans hport

/-- What a LAPSE frame leaves of a live entry, in the state in which its sender is heard (R12, R14). -/
theorem lapse_ends {s : State} {p o n : Byte} {e : Entry} (hd : distinctClaims s) (he : s.entry (o, n) = some e)
    (hlive : e.state ≠ .ending) (hslot : slotFits s (o, n) e) :
    let t := takeLapse p o n (heardState s p)
    t.entry (o, n) = some (endedAs .lapsed s.clock.stationTime e) ∧ t.selector.onAir ≠ some (o, n) ∧ t.presence.level = .active
      ∧ (s.port.events.length < 15 → s.tx.queue.length < 7 →
          postedLast s.port.events ⟨.lapseHeard, s.clock.stationTime, p, o, n⟩ t.port.events)
      ∧ sameGround s t := by
  dsimp only
  rw [takeLapse_live (s := heardState s p) he hlive]
  refine ⟨endEntry_entry_self (s := heardState s p) hd he hlive hslot, endEntry_onAir_ne (s := heardState s p) hd he hlive hslot,
    congrArg Presence.level (endEntry_presence (s := heardState s p) he hlive), fun hevents hqueue => ?_,
    sameGround_trans (sameGround_heardState s p) (sameGround_endEntry (o, n) .lapsed (heardState s p))⟩
  exact (announces_endEntry (s := heardState s p) he hlive hqueue).postedLast (Nat.succ_lt_succ hevents) _

theorem lapse_remote {s : State} {p o n : Byte} {e : Entry} (hp : isStation p = true) (ho : isStation o = true)
    (he : s.entry (o, n) = some e) (hlive : e.state ≠ .ending) (hremote : e.isLocal = false) :
    ((takeLapse p o n (heardState s p)).peer o).lastEnded = nextLastEnded (s.peer o).lastEnded n
      ∧ (takeLapse p o n (heardState s p)).cues = s.cues := by
  have hpeer := endEntry_remote_peers (s := heardState s p) (cause := .lapsed) he hlive hremote nofun o
  rw [show e.origin = o from congrArg Prod.fst (entry_key he), show e.number = n from congrArg Prod.snd (entry_key he)] at hpeer
  rw [takeLapse_live (s := heardState s p) he hlive]
  exact ⟨(congrArg Peer.lastEnded hpeer).trans (noteEnded_heardState hp ho n),
    endEntry_remote_cues (s := heardState s p) he hlive hremote⟩

/-- Settles O40, by the outcomes of `takeLapse` on the state in which the sender is heard. -/
theorem lapseFrameEndsTheEntry : Obligations.LapseFrameEndsTheEntry := by
  refine ⟨fun f last o n s h hknown hbody ho hd => ⟨fun e he hremote hwaiting hcandidate hair hothers hevents hqueue => ?_,
      fun hnone hpeer => ?_, fun hnone hown => ?_⟩, ?_, fun origin mark o n last s h hbad => ?_⟩
  · have hlive : e.state ≠ .ending := by rw [hwaiting]; decide
    have hslot : slotFits s (o, n) e := fun hslot => absurd (hair.symm.trans hslot) nofun
    obtain ⟨hentry, -, hlevel, -, hground⟩ := lapse_ends (p := f.origin) hd he hlive hslot
    obtain ⟨hlast, hcues⟩ := lapse_remote h.sender ho he hlive hremote
    have hport : (takeLapse f.origin o n (heardState s f.origin)).port =
        portWith ⟨.lapseHeard, s.clock.stationTime, f.origin, o, n⟩ s.port := by
      rw [takeLapse_live (s := heardState s f.origin) he hlive, endEntry_alone (s := heardState s f.origin) he hwaiting hair hothers]
      exact congrArg (portWith _) (endingTold_port_remote (s := heardState s f.origin) hremote (.inl hqueue))
    refine ⟨_, h.exec_lapse hknown hbody ho, hentry.trans (congrArg some (entry_ended_remote hremote .lapsed _)), hlast,
      hlevel, ?_, hground, hcues⟩
    · rw [hport]
      exact congrArg SitePort.events (portWith_of_room (Nat.lt_succ_of_lt hevents))
  · have hexec := (h.exec_lapse hknown hbody ho).trans
      (congrArg _ ((takeLapse_none (s := heardState s f.origin) hnone).trans (if_neg hpeer)))
    have hlast := noteEnded_heardState (s := s) h.sender ho n
    rw [noteEnded_of_station ho] at hexec hlast
    exact ⟨_, hexec, rfl, hlast, sameGround_heardState s f.origin, rfl, rfl, rfl, rfl, rfl⟩
  · have hexec := (h.exec_lapse hknown hbody ho).trans
      (congrArg _ ((takeLapse_none (s := heardState s f.origin) hnone).trans (if_pos hown)))
    exact ⟨_, hexec, rfl, heardState_self h.sender, fun p hp => heardState_other h.sender hp, sameGround_heardState s f.origin, rfl, rfl,
      rfl, rfl, rfl⟩
  · intro f last o n e s h hknown hbody ho hd he lapsed heard ends
    refine ⟨fun hremote hlive hslot => ?_, fun hlocal hown hlive hslot => ?_, fun hending hcause => ?_⟩
    · exact ⟨_, ⟨h.exec_lapse hknown hbody ho, lapse_ends hd he hlive hslot⟩, lapse_remote h.sender ho he hlive hremote⟩
    · intro told
      have htold : told (takeLapse f.origin o n (heardState s f.origin)) := by
        refine ⟨⟨h.exec_lapse hknown hbody ho, lapse_ends hd he hlive hslot⟩, fun p hp => ?_, fun hqueue => ?_⟩
        · rw [takeLapse_live (s := heardState s f.origin) he hlive]
          exact endEntry_local_heard h.sender he hlive hlocal p hp
        · rw [takeLapse_live (s := heardState s f.origin) he hlive]
          refine ⟨_, endEntry_release (s := heardState s f.origin) he hlive hlocal (.inl hqueue), ?_, rfl⟩
          exact congrArg (FrameBody.release · 0) (congrArg Prod.snd (entry_key he))
      have hcues : (takeLapse f.origin o n (heardState s f.origin)).cues = (cueNotice e.source .lapsed s).cues := by
        rw [takeLapse_live (s := heardState s f.origin) he hlive]
        exact (endEntry_local_cues (s := heardState s f.origin) he hlive hlocal).trans (cueNotice_cues_congr _ _ rfl rfl)
      refine ⟨fun c hsource hactive => ⟨_, htold, hcues.trans ?_⟩, fun hsource => ⟨_, htold, hcues.trans ?_⟩⟩
      · rw [hsource, cueNotice_channel (cause := .lapsed) nofun hactive]
        rfl
      · rw [hsource, cueNotice_manual (cause := .lapsed) nofun]
        rfl
    · have hexec := (h.exec_lapse hknown hbody ho).trans (congrArg _ (takeLapse_ended (s := heardState s f.origin) he hending hcause))
      exact ⟨_, hexec, rfl, heardState_self h.sender, fun p hp => heardState_other h.sender hp, rfl, sameGround_heardState s f.origin,
        rfl, rfl, rfl, rfl, rfl, rfl⟩
  · refine (exec_lapseFrame h.running last).trans (congrArg _ ((h.received rfl).trans
      (Eq.trans (b := lapsePayload origin [o, n] (heardState s origin)) rfl (if_pos ?_))))
    show (!isStation o) = true
    rw [hbad]
    rfl

end Sys2Proof.Machine
end
section
/-! The endings of all the live claims of one peer (R7, R130): the table and the slot through a series of endings, and what the series
leaves of the peers and posts. -/

namespace Sys2Proof.Machine

/-! ### The slot through selection runs and endings -/

/-- The entries are distinct, and the slot names the one that is ON_AIR (R2, R43). -/
structure SlotOk (s : State) : Prop where
  distinct : distinctClaims s
  slot : slotAgrees s

namespace SlotOk
variable {s t : State}

theorem congr (h : SlotOk s) (hentries : t.claims.entries = s.claims.entries) (hair : t.selector.onAir = s.selector.onAir) :
    SlotOk t where
  distinct := distinctClaims_congr (keys_congr hentries) h.distinct
  slot := by
    unfold slotAgrees
    rw [hentries, hair]
    exact h.slot

theorem onAir_iff (h : SlotOk s) {k : Byte × Byte} {e : Entry} (he : s.entry k = some e) :
    e.state = .onAir ↔ s.selector.onAir = some k := by
  have hmem : e.key ∈ s.slotKeys ↔ s.selector.onAir = some e.key := by
    rw [show s.slotKeys = s.selector.onAir.toList from h.slot, Option.mem_toList]
  rw [← entry_key he, ← hmem, mem_slotKeys]
  refine ⟨fun hair => ⟨e, State.mem_of_entry he, hair, rfl⟩, fun ⟨x, hx, hair, hk⟩ => ?_⟩
  rwa [← eq_of_key_eq h.distinct hx (State.mem_of_entry he) hk]

theorem slotFits (h : SlotOk s) {k : Byte × Byte} {e : Entry} (he : s.entry k = some e) : slotFits s k e := (h.onAir_iff he).2

theorem onAirChange (hd : distinctClaims s) (old : Byte) {new : Option Entry} (hslot : s.slotKeys = (new.map Entry.key).toList) :
    SlotOk (onAirChange old new s) where
  distinct := distinctClaims_congr (keys_onAirChange old new s) hd
  slot := by
    show (Machine.onAirChange old new s).slotKeys = _
    rw [slotKeys_congr (congrArg ClaimTable.entries (onAirChange_claims old new s)), onAirChange_onAir]
    exact hslot

theorem fill (hd : distinctClaims s) (hempty : s.slotKeys = []) (old : Byte) {x : Entry} (hx : s.bestWaiting = some x) :
    SlotOk (Machine.onAirChange old (some x) (setEntryState x.key .onAir s)) :=
  onAirChange (distinctClaims_congr (keys_setEntryState _ _ s) hd) old (slotKeys_setEntryState_onAir hd (bestWaiting_spec hx).1 hempty)

theorem fillSlot (hd : distinctClaims s) (hempty : s.slotKeys = []) (old : Byte) : SlotOk (fillSlot old true s) := by
  unfold Machine.fillSlot
  split
  · next x hx => exact fill hd hempty old hx
  · exact onAirChange hd old (new := none) hempty

theorem select (h : SlotOk s) : SlotOk (select s) := by
  have hslot : s.slotKeys = s.selector.onAir.toList := h.slot
  rcases select_spec s with heq | ⟨x, hnone, hx, heq⟩ | ⟨k, x, y, hk, hy, hx, -, -, heq⟩ <;> rw [heq]
  · exact h
  · exact fill h.distinct (by rw [hslot, hnone]; rfl) 0 hx
  · have hemptied : (setEntryState y.key .waiting s).slotKeys = [] := by
      rw [setEntryState, slotKeys_updateEntry (fun _ => by simp), hslot, hk, entry_key hy]
      simp
    have hd' : distinctClaims (setEntryState y.key .waiting s) := distinctClaims_congr (keys_setEntryState _ _ s) h.distinct
    have hmem : x ∈ (setEntryState y.key .waiting s).claims.entries := by
      rw [setEntryState_claims]
      refine List.mem_map.2 ⟨x, (bestWaiting_spec hx).1, ?_⟩
      split
      · rw [← (bestWaiting_spec hx).2.1]
      · rfl
    exact onAirChange (distinctClaims_congr (keys_setEntryState _ _ _) hd') y.origin (slotKeys_setEntryState_onAir hd' hmem hemptied)

theorem endEntry (h : SlotOk s) (k : Byte × Byte) (cause : EndCause) : SlotOk (endEntry k cause s) := by
  have hslot : s.slotKeys = s.selector.onAir.toList := h.slot
  rcases endEntry_cases k cause s with heq | ⟨e, he, -, heq⟩ <;> rw [heq]
  · exact h
  · show SlotOk (refillSlot e (endingTold k cause e s))
    have hd : distinctClaims (endingTold k cause e s) := distinctClaims_congr (keys_endingTold k cause e s) h.distinct
    have hkeys : (endingTold k cause e s).slotKeys = s.slotKeys.filter fun j => j != k := by
      rw [← slotKeys_updateEntry (f := Entry.ended cause s.clock.stationTime) fun _ => nofun]
      exact slotKeys_congr (congrArg ClaimTable.entries (endingTold_entries k cause e s))
    unfold refillSlot
    split
    · next hair =>
      refine fillSlot hd ?_ e.origin
      show (endingTold k cause e s).slotKeys = []
      rw [hkeys, hslot, (h.onAir_iff he).1 hair]
      simp
    · next hair =>
      refine select ⟨hd, ?_⟩
      show (endingTold k cause e s).slotKeys = _
      rw [hkeys, endingTold_selector, ← hslot, List.filter_eq_self]
      intro j hj
      rw [bne_iff_ne]
      rintro rfl
      rw [hslot, Option.mem_toList] at hj
      exact hair ((h.onAir_iff he).2 hj)

/-- Entries that are not on air leave, and the slot stands. -/
theorem filterEntries (h : SlotOk s) {stays : Entry → Bool} (hstays : ∀ e ∈ s.claims.entries, stays e = false → e.state ≠ .onAir) :
    SlotOk (setEntries (s.claims.entries.filter stays) s) where
  distinct := List.Pairwise.sublist List.filter_sublist h.distinct
  slot := by
    refine Eq.trans ?_ h.slot
    show ((s.claims.entries.filter stays).filter _).map _ = _
    rw [List.filter_filter]
    refine congrArg (List.map Entry.key) (List.filter_congr fun e he => ?_)
    cases hstay : stays e with
    | true => rw [Bool.and_true]
    | false => rw [Bool.and_false, beq_false_of_ne (hstays e he hstay)]

end SlotOk

/-! ### How many claims of a peer are live -/

/-- The identity is one of this origin whose entry is live. -/
def liveKey (p : Byte) (s : State) (k : Byte × Byte) : Bool := k.1 == p && (s.entry k).any Entry.live

theorem liveCount_eq {s : State} (hd : distinctClaims s) (p : Byte) : liveCount p s = s.keys.countP (liveKey p s) := by
  rw [liveCount, ← List.countP_eq_length_filter, State.keys, List.countP_map]
  refine List.countP_congr fun e he => ?_
  rw [Function.comp_apply, liveKey, entry_of_mem hd he]
  rfl

theorem liveKey_iff {p : Byte} {s : State} {k : Byte × Byte} :
    liveKey p s k = true ↔ k.1 = p ∧ ∃ e, s.entry k = some e ∧ e.state ≠ .ending := by
  rw [liveKey, Bool.and_eq_true, beq_iff_eq, Option.any_eq_true]
  simp only [live_iff]

/-! ### A series of endings -/

/-- What a series of endings with this cause leaves of an entry of the peer: it ended before, it ended in the series, or it is live
still. -/
def EndedOrLive (cause : EndCause) (now : Time) (e y : Entry) : Prop :=
  (e.state = .ending ∧ y = e) ∨ (e.state ≠ .ending ∧ (y = e.ended cause now ∨ (y.state ≠ .ending ∧ y.alike e)))

theorem ended_of_alike {e y : Entry} (h : y.alike e) (cause : EndCause) (now : Time) : y.ended cause now = e.ended cause now :=
  (congrArg (Entry.ended cause now) h :)

theorem EndedOrLive.trans {cause : EndCause} {now : Time} {e y z : Entry} (h : EndedOrLive cause now e y)
    (h' : EndedOrLive cause now y z) : EndedOrLive cause now e z := by
  rcases h with ⟨hending, rfl⟩ | ⟨hlive, rfl | ⟨hstill, halike⟩⟩
  · exact h'
  · rcases h' with ⟨-, rfl⟩ | ⟨hlive', -⟩
    · exact .inr ⟨hlive, .inl rfl⟩
    · exact absurd rfl hlive'
  · rcases h' with ⟨hending', -⟩ | ⟨-, rfl | ⟨hstill', halike'⟩⟩
    · exact absurd hending' hstill
    · exact .inr ⟨hlive, .inl (ended_of_alike halike cause now)⟩
    · exact .inr ⟨hlive, .inr ⟨hstill', halike'.trans halike⟩⟩

/-- From `s` to `t` `n` live remote entries of peer `p` ended with this cause. -/
structure EndedSome (n : Nat) (p : Byte) (cause : EndCause) (s t : State) : Prop where
  ok : SlotOk t
  keys : t.keys = s.keys
  own : ∀ k e, k.1 = p → s.entry k = some e → ∃ y, t.entry k = some y ∧ EndedOrLive cause s.clock.stationTime e y
  others : ∀ k e, k.1 ≠ p → s.entry k = some e → ∃ y, t.entry k = some y ∧ y.alike e
  count : liveCount p s = n + liveCount p t
  peer : ∃ l, t.peer p = { s.peer p with lastEnded := l }
  peers : ∀ q, q ≠ p → t.peer q = s.peer q
  ground : sameGround s t
  cues : t.cues = s.cues
  posts : takesPresence s.tx.queue → Announces n s t

theorem EndedSome.refl {s : State} (h : SlotOk s) (p : Byte) (cause : EndCause) : EndedSome 0 p cause s s where
  ok := h
  keys := rfl
  own k e _ he := ⟨e, he, (Decidable.em (e.state = .ending)).imp (⟨·, rfl⟩) (⟨·, .inr ⟨‹_›, rfl⟩⟩)⟩
  others k e _ he := ⟨e, he, rfl⟩
  count := (Nat.zero_add _).symm
  peer := ⟨_, rfl⟩
  peers _ _ := rfl
  ground := ⟨rfl, rfl, rfl, rfl, rfl, rfl⟩
  cues := rfl
  posts h := .of_same h rfl

theorem EndedSome.clock {n : Nat} {p : Byte} {cause : EndCause} {s t : State} (h : EndedSome n p cause s t) : t.clock = s.clock := by
  obtain ⟨-, -, hclock, -⟩ := h.ground
  exact hclock

theorem EndedSome.trans {m n : Nat} {p : Byte} {cause : EndCause} {s t u : State} (h : EndedSome m p cause s t)
    (h' : EndedSome n p cause t u) : EndedSome (m + n) p cause s u where
  ok := h'.ok
  keys := h'.keys.trans h.keys
  own k e hk he := by
    obtain ⟨y, hy, hstep⟩ := h.own k e hk he
    obtain ⟨z, hz, hstep'⟩ := h'.own k y hk hy
    rw [h.clock] at hstep'
    exact ⟨z, hz, hstep.trans hstep'⟩
  others k e hk he := by
    obtain ⟨y, hy, halike⟩ := h.others k e hk he
    obtain ⟨z, hz, halike'⟩ := h'.others k y hk hy
    exact ⟨z, hz, halike'.trans halike⟩
  count := by rw [h.count, h'.count, Nat.add_assoc]
  peer := by
    obtain ⟨l, hl⟩ := h.peer
    obtain ⟨l', hl'⟩ := h'.peer
    exact ⟨l', by rw [hl', hl]⟩
  peers q hq := (h'.peers q hq).trans (h.peers q hq)
  ground := sameGround_trans h.ground h'.ground
  cues := h'.cues.trans h.cues
  posts htakes := (h.posts htakes).trans (h'.posts (h.posts htakes).takes)

/-- The entries of this origin are remote. -/
def remoteOf (p : Byte) (s : State) : Prop := ∀ k e, k.1 = p → s.entry k = some e → e.isLocal = false

theorem entry_isSome_iff {s t : State} (h : t.keys = s.keys) (k : Byte × Byte) : (∃ e, t.entry k = some e) ↔ ∃ e, s.entry k = some e := by
  rw [← Option.isSome_iff_exists, ← Option.isSome_iff_exists, ← not_iff_not, Option.not_isSome_iff_eq_none,
    Option.not_isSome_iff_eq_none, entry_eq_none, entry_eq_none, h]

theorem EndedSome.remoteOf {n : Nat} {p : Byte} {cause : EndCause} {s t : State} (h : EndedSome n p cause s t) (hr : remoteOf p s) :
    remoteOf p t := by
  intro k y hk hy
  obtain ⟨e, he⟩ := (entry_isSome_iff h.keys k).1 ⟨y, hy⟩
  obtain ⟨z, hz, hstep⟩ := h.own k e hk he
  have hremote := hr k e hk he
  rw [Option.some.inj (hy.symm.trans hz)]
  rcases hstep with ⟨-, rfl⟩ | ⟨-, rfl | ⟨-, halike⟩⟩
  · exact hremote
  · exact hremote
  · exact (congrArg Entry.isLocal halike :).trans hremote

/-- The ending of another entry leaves an ended entry as it stands and a live one live. -/
theorem endEntry_other_stands {s : State} (h : SlotOk s) {j k : Byte × Byte} {cause : EndCause} (hne : k ≠ j) {e : Entry}
    (he : s.entry k = some e) : ∃ y, (endEntry j cause s).entry k = some y
      ∧ ((e.state = .ending ∧ y = e) ∨ (e.state ≠ .ending ∧ y.state ≠ .ending ∧ y.alike e)) := by
  obtain ⟨st, hfound, hmay⟩ := endEntry_entry_other h.distinct (cause := cause) hne he
  refine ⟨_, hfound, ?_⟩
  by_cases hending : e.state = .ending
  · have hst : st = e.state := by
      rcases hmay with (hst | ⟨hwaiting, -⟩) | ⟨hslot, -⟩
      · exact hst
      · exact absurd (hending.symm.trans hwaiting) (by decide)
      · exact absurd (hending.symm.trans ((h.onAir_iff he).2 hslot)) (by decide)
    exact .inl ⟨hending, by rw [hst]⟩
  · refine .inr ⟨hending, ?_, rfl⟩
    rcases hmay with (rfl | ⟨-, -, rfl⟩) | ⟨-, rfl⟩
    · exact hending
    · exact nofun
    · exact nofun

theorem endEntry_restarted_peers {k : Byte × Byte} {s : State} {e : Entry} (he : s.entry k = some e) (hlive : e.state ≠ .ending)
    (hremote : e.isLocal = false) : (endEntry k .restarted s).peers = s.peers := by
  have hrefill (t : State) : (refillSlot e t).peers = t.peers := by
    unfold refillSlot
    split <;> simp
  rw [endEntry_of_live he (live_iff.2 hlive), hrefill, (activeFrom_activity _).peers, tellEnding, if_neg (by simp [hremote]), if_pos rfl]
  rfl

theorem nodup_countP_erase {α : Type} [DecidableEq α] {l : List α} (hl : l.Nodup) {a : α} (ha : a ∈ l) {P Q : α → Bool}
    (hP : P a = true) (hQ : ∀ x, Q x = true ↔ P x = true ∧ x ≠ a) : l.countP P = 1 + l.countP Q := by
  have hQa : ¬ Q a = true := fun h => ((hQ a).1 h).2 rfl
  have hrest : (l.erase a).countP P = (l.erase a).countP Q := List.countP_congr fun x hx => by
    rw [hQ, and_iff_left (hl.mem_erase_iff.1 hx).1]
  rw [(List.perm_cons_erase ha).countP_eq P, (List.perm_cons_erase ha).countP_eq Q, List.countP_cons_of_pos hP,
    List.countP_cons_of_neg hQa, hrest, Nat.add_comm]

/-- Of the live claims of a peer an ending takes the one that it ends. -/
theorem liveKey_endEntry {p : Byte} {cause : EndCause} {s : State} {k : Byte × Byte} {e : Entry} (h : SlotOk s)
    (he : s.entry k = some e) (hlive : e.state ≠ .ending) (j : Byte × Byte) :
    liveKey p (endEntry k cause s) j = true ↔ liveKey p s j = true ∧ j ≠ k := by
  rw [liveKey_iff, liveKey_iff]
  by_cases hjk : j = k
  · subst hjk
    rw [endEntry_entry_self h.distinct he hlive (h.slotFits he)]
    refine ⟨fun ⟨_, x, hx, hnot⟩ => ?_, fun hh => absurd rfl hh.2⟩
    rw [← Option.some.inj hx] at hnot
    exact absurd rfl hnot
  · rw [and_iff_left hjk]
    refine and_congr_right fun _ => ?_
    cases hx : s.entry j with
    | none => rw [endEntry_entry_none hx]
    | some x =>
      obtain ⟨y, hy, hstands⟩ := endEntry_other_stands h (cause := cause) hjk hx
      have hsame : y.state ≠ .ending ↔ x.state ≠ .ending := by
        rcases hstands with ⟨-, rfl⟩ | ⟨hxlive, hylive, -⟩
        · rfl
        · exact iff_of_true hylive hxlive
      rw [hy]
      simpa using hsame

/-- One ending. -/
theorem endedSome_endEntry {p : Byte} {cause : EndCause} {s : State} {k : Byte × Byte} {e : Entry} (h : SlotOk s) (hr : remoteOf p s)
    (hk : k.1 = p) (he : s.entry k = some e) (hlive : e.state ≠ .ending) : EndedSome 1 p cause s (endEntry k cause s) := by
  have hremote := hr k e hk he
  have hself := endEntry_entry_self h.distinct (cause := cause) he hlive (h.slotFits he)
  constructor
  case ok => exact h.endEntry k cause
  case keys => exact keys_endEntry k cause s
  case own =>
    intro j x hj hx
    by_cases hjk : j = k
    · subst hjk
      rw [Option.some.inj (hx.symm.trans he)]
      exact ⟨_, hself, .inr ⟨hlive, .inl rfl⟩⟩
    · obtain ⟨y, hy, hstands⟩ := endEntry_other_stands h hjk hx
      exact ⟨y, hy, hstands.imp_right (And.imp_right .inr)⟩
  case others =>
    intro j x hj hx
    exact (endEntry_others h.distinct (fun hjk => hj ((congrArg Prod.fst hjk).trans hk))).1 x hx
  case count =>
    have hkeys := keys_endEntry k cause s
    have hd := distinctClaims_congr hkeys h.distinct
    rw [liveCount_eq h.distinct, liveCount_eq hd, hkeys]
    refine nodup_countP_erase ((distinctClaims_iff s).1 h.distinct) (Decidable.not_not.1 fun hnot => ?_)
      (liveKey_iff.2 ⟨hk, e, he, hlive⟩) fun j => liveKey_endEntry h he hlive j
    exact absurd (he.symm.trans (entry_eq_none.2 hnot)) nofun
  case peer =>
    by_cases hcause : cause = .restarted
    · subst hcause
      exact ⟨_, peer_congr (endEntry_restarted_peers he hlive hremote) p⟩
    · rw [endEntry_remote_peers he hlive hremote hcause, noteEnded_spec]
      split
      · next heq => exact ⟨_, by rw [← heq.1]⟩
      · exact ⟨_, rfl⟩
  case peers =>
    intro q hq
    by_cases hcause : cause = .restarted
    · subst hcause
      exact peer_congr (endEntry_restarted_peers he hlive hremote) q
    · rw [endEntry_remote_peers he hlive hremote hcause, noteEnded_spec, if_neg]
      rintro ⟨rfl, -⟩
      exact hq ((congrArg Prod.fst (entry_key he) :).trans hk)
  case ground => exact sameGround_endEntry k cause s
  case cues => exact endEntry_remote_cues he hlive hremote
  case posts => exact announces_endEntry_remote he hlive hremote

/-! ### The endings of all claims of a peer -/

theorem mem_iff_entry {s : State} (hd : distinctClaims s) {e : Entry} : e ∈ s.claims.entries ↔ s.entry e.key = some e :=
  ⟨entry_of_mem hd, State.mem_of_entry⟩

theorem firstWaitingOf_spec {p : Byte} {s : State} {e : Entry} (h : firstWaitingOf p s = some e) :
    e ∈ s.claims.entries ∧ e.origin = p ∧ e.state = .waiting := by
  have hfound := List.find?_some h
  rw [Bool.and_eq_true, beq_iff_eq, beq_iff_eq] at hfound
  exact ⟨List.mem_of_find?_eq_some h, hfound⟩

theorem firstWaitingOf_none {p : Byte} {s : State} (h : firstWaitingOf p s = none) :
    ∀ e ∈ s.claims.entries, e.origin = p → e.state ≠ .waiting := by
  intro e he horigin hwaiting
  refine absurd (List.find?_eq_none.1 h e he) ?_
  rw [horigin, hwaiting]
  simp

/-- With fuel for every live claim of the peer, none of them is left in WAITING. -/
theorem endedSome_endWaitingOf {p : Byte} {cause : EndCause} : ∀ (fuel : Nat) (s : State), SlotOk s → remoteOf p s →
    liveCount p s ≤ fuel → ∃ n, EndedSome n p cause s (endWaitingOf p cause fuel s)
      ∧ ∀ e ∈ (endWaitingOf p cause fuel s).claims.entries, e.origin = p → e.state ≠ .waiting
  | 0, s, h, _, hfuel => by
    refine ⟨0, .refl h p cause, fun e he horigin hwaiting => ?_⟩
    have hnone := List.eq_nil_of_length_eq_zero (Nat.le_zero.1 hfuel)
    refine absurd (List.filter_eq_nil_iff.1 hnone e he) ?_
    rw [horigin, Entry.live, hwaiting]
    simp
  | fuel + 1, s, h, hr, hfuel => by
    rw [endWaitingOf]
    cases hfirst : firstWaitingOf p s with
    | none => exact ⟨0, .refl h p cause, firstWaitingOf_none hfirst⟩
    | some e =>
      obtain ⟨hmem, horigin, hwaiting⟩ := firstWaitingOf_spec hfirst
      have hone := endedSome_endEntry (cause := cause) h hr horigin (entry_of_mem h.distinct hmem) (by rw [hwaiting]; decide)
      obtain ⟨n, hrest, hnone⟩ := endedSome_endWaitingOf fuel (endEntry e.key cause s) hone.ok (hone.remoteOf hr)
        (by have := hone.count; omega)
      exact ⟨1 + n, hone.trans hrest, hnone⟩

theorem endWaitingOf_then {p : Byte} {cause : EndCause} {s : State} : endAllOf p cause s =
    ((endWaitingOf p cause s.claims.entries.length s).claims.entries.find? fun e => e.origin == p && e.state == .onAir).elim
      (endWaitingOf p cause s.claims.entries.length s)
      fun e => endEntry e.key cause (endWaitingOf p cause s.claims.entries.length s) := by
  rw [endAllOf]
  cases (endWaitingOf p cause s.claims.entries.length s).claims.entries.find? fun e => e.origin == p && e.state == .onAir <;> rfl

theorem liveCount_eq_zero {p : Byte} {s : State} : liveCount p s = 0 ↔ ∀ e ∈ s.claims.entries, e.origin = p → e.state = .ending := by
  rw [liveCount, List.length_eq_zero_iff, List.filter_eq_nil_iff]
  refine forall₂_congr fun e _ => ?_
  rw [Bool.and_eq_true, beq_iff_eq, live_iff, not_and, not_not]

/-- R7, R130: every live claim of the peer ends. -/
theorem endedSome_endAllOf {p : Byte} (cause : EndCause) {s : State} (h : SlotOk s) (hr : remoteOf p s) :
    EndedSome (liveCount p s) p cause s (endAllOf p cause s) ∧ liveCount p (endAllOf p cause s) = 0 := by
  obtain ⟨n, hsome, hwaiting⟩ := endedSome_endWaitingOf (cause := cause) s.claims.entries.length s h hr (List.length_filter_le _ _)
  rw [endWaitingOf_then]
  generalize endWaitingOf p cause s.claims.entries.length s = u at hsome hwaiting
  suffices hall : ∃ m, EndedSome m p cause s ((u.claims.entries.find? fun e => e.origin == p && e.state == .onAir).elim u
      fun e => endEntry e.key cause u) ∧ liveCount p ((u.claims.entries.find? fun e => e.origin == p && e.state == .onAir).elim u
      fun e => endEntry e.key cause u) = 0 by
    obtain ⟨m, hended, hzero⟩ := hall
    have hcount := hended.count
    rw [hzero, Nat.add_zero] at hcount
    rw [hcount]
    exact ⟨hended, hzero⟩
  cases hair : u.claims.entries.find? fun e => e.origin == p && e.state == .onAir with
  | none =>
    refine ⟨n, hsome, liveCount_eq_zero.2 fun e he horigin => ?_⟩
    have hnot := List.find?_eq_none.1 hair e he
    rw [horigin, beq_self_eq_true, Bool.true_and, beq_iff_eq] at hnot
    have hwait := hwaiting e he horigin
    cases hstate : e.state with
    | waiting => exact absurd hstate hwait
    | onAir => exact absurd hstate hnot
    | ending => rfl
  | some x =>
    have hmem := List.mem_of_find?_eq_some hair
    have hx := List.find?_some hair
    rw [Bool.and_eq_true, beq_iff_eq, beq_iff_eq] at hx
    obtain ⟨horigin, hstate⟩ := hx
    have hentry := entry_of_mem hsome.ok.distinct hmem
    have hone := endedSome_endEntry (cause := cause) hsome.ok (hsome.remoteOf hr) horigin hentry (by rw [hstate]; decide)
    refine ⟨n + 1, hsome.trans hone, ?_⟩
    have honly : ∀ e ∈ u.claims.entries, e.origin = p → e.state ≠ .ending → e.key = x.key := by
      intro e he hp hlive
      have hon : e.state = .onAir := by
        have hwait := hwaiting e he hp
        cases hst : e.state with
        | waiting => exact absurd hst hwait
        | onAir => rfl
        | ending => exact absurd hst hlive
      have hslot := (hsome.ok.onAir_iff (entry_of_mem hsome.ok.distinct he)).1 hon
      exact Option.some.inj (hslot.symm.trans ((hsome.ok.onAir_iff hentry).1 hstate))
    refine liveCount_eq_zero.2 fun e he hp => Decidable.not_not.1 fun hlive => ?_
    obtain ⟨hbefore, hne⟩ := (liveKey_endEntry hsome.ok hentry (by rw [hstate]; decide) e.key).1
      (liveKey_iff.2 ⟨hp, e, entry_of_mem hone.ok.distinct he, hlive⟩)
    obtain ⟨-, y, hy, hylive⟩ := liveKey_iff.1 hbefore
    have hyp : y.origin = p := (congrArg Prod.fst (entry_key hy) :).trans hp
    exact hne ((entry_key hy).symm.trans (honly y (State.mem_of_entry hy) hyp hylive))

end Sys2Proof.Machine
end
section
/-! A peer that falls silent (R129, R130, R140) and a peer that restarts (R7, R124, R125). -/

namespace Sys2Proof.Machine

/-! ### Absence -/

theorem remoteOf_of_locality {s : State} {p : Byte} (hlocal : localityHolds s) (hp : p ≠ s.settings.station) : remoteOf p s := by
  intro k e hk he
  have horigin : e.origin = p := (congrArg Prod.fst (entry_key he) :).trans hk
  rw [hlocal e (State.mem_of_entry he), horigin]
  exact beq_false_of_ne hp

/-- Without a live claim of the peer there is nothing to end. -/
theorem endAllOf_of_none {p : Byte} {s : State} (h : ∀ e ∈ s.claims.entries, e.origin = p → e.state = .ending) (cause : EndCause) :
    endAllOf p cause s = s := by
  have hwaiting : firstWaitingOf p s = none := List.find?_eq_none.2 fun e he hfound => by
    rw [Bool.and_eq_true, beq_iff_eq, beq_iff_eq] at hfound
    exact absurd ((h e he hfound.1).symm.trans hfound.2) (by decide)
  have hair : (s.claims.entries.find? fun e => e.origin == p && e.state == .onAir) = none := List.find?_eq_none.2 fun e he hfound => by
    rw [Bool.and_eq_true, beq_iff_eq, beq_iff_eq] at hfound
    exact absurd ((h e he hfound.1).symm.trans hfound.2) (by decide)
  have hnone : ∀ fuel, endWaitingOf p cause fuel s = s := by
    intro fuel
    cases fuel with
    | zero => rfl
    | succ n => rw [endWaitingOf, hwaiting]
  rw [endWaitingOf_then, hnone, hair]
  rfl

theorem deadlineReached_iff (s : State) (q : Peer) : deadlineReached s q = true ↔ s.clock.atSecond = true ∧ q.state = .present
    ∧ ∃ deadline, q.deadline = some deadline ∧ (s.clock.stationTime - deadline).toNat < 2 ^ 31 := by
  rw [deadlineReached, Bool.and_eq_true, Bool.and_eq_true, beq_iff_eq, and_assoc]
  refine and_congr_right fun _ => and_congr_right fun _ => ?_
  cases q.deadline with
  | none => simp
  | some t =>
    simp only [Clock.reached, Option.some.injEq, exists_eq_left']
    exact decide_eq_true_iff

theorem exec_peerDeadlineReached {s : State} (hr : s.running = true) (p : Byte) : exec (.peerDeadlineReached p) s =
    .next (if deadlineReached s (s.peer p) then losePeer p s else s) := whenRunning_eq hr

/-- The state in which a peer has become ABSENT and its claims are still to be ended (R129). -/
def peerLost (p : Byte) (s : State) : State := s.setPeers (s.peers.setIfInBounds (p.toNat - 1) (s.peer p).lost)

theorem peerLost_peer {p : Byte} (hp : isStation p = true) (s : State) (q : Byte) :
    (peerLost p s).peer q = if q = p then (s.peer p).lost else s.peer q := by
  have hspec := updatePeer_spec p q Peer.lost s
  rw [updatePeer_of_station hp] at hspec
  simp only [hp, and_true] at hspec
  exact hspec

/-- R129, R130: the live claims of a peer that falls silent end, and PEER_ABSENT is posted with their number. -/
theorem losePeer_eq {p : Byte} (hp : isStation p = true) (s : State) : losePeer p s =
    (endAllOf p .expired (peerLost p s)).setPort (portWith
      ⟨.peerAbsent, (endAllOf p .expired (peerLost p s)).clock.stationTime, p,
        countByte ((endAllOf p .expired (peerLost p s)).peer p).absences, countByte (liveCount p s)⟩
      (endAllOf p .expired (peerLost p s)).port) := by
  rw [losePeer, postEvent_eq, updatePeer_of_station hp]
  rfl

/-- Settles O48. -/
theorem silentPeerBecomesAbsent : Obligations.SilentPeerBecomesAbsent := by
  intro p s hr hp
  refine ⟨fun deadline hsecond hpresent hdeadline hreached hd hlocal hslot hforeign habsences => ?_, fun hnot => ?_⟩
  · have hdue : deadlineReached s (s.peer p) = true := (deadlineReached_iff _ _).2 ⟨hsecond, hpresent, deadline, hdeadline, hreached⟩
    have hexec := (exec_peerDeadlineReached hr p).trans (congrArg _ ((if_pos hdue).trans (losePeer_eq hp s)))
    obtain ⟨hended, hzero⟩ := endedSome_endAllOf (p := p) .expired (s := peerLost p s) ⟨hd, hslot⟩
      (remoteOf_of_locality (s := s) hlocal hforeign)
    have hnone := endAllOf_of_none (p := p) (s := peerLost p s) (cause := .expired)
    have hmoved : liveCount p s = (s.claims.entries.filter fun e => e.origin = p ∧ e.state ≠ .ending).length := by
      refine congrArg List.length (List.filter_congr fun e _ => ?_)
      rw [Bool.eq_iff_iff, Bool.and_eq_true, beq_iff_eq, live_iff, decide_eq_true_iff]
    obtain ⟨l, hpeer⟩ := hended.peer
    rw [peerLost_peer hp, if_pos rfl] at hpeer
    have habsent : (s.peer p).lost.absences = (s.peer p).absences + 1 := by
      show satInc 255 (s.peer p).absences = _
      rw [satInc_eq_min]
      omega
    rw [hended.clock, congrArg Peer.absences hpeer, show ({ (s.peer p).lost with lastEnded := l } : Peer).absences = _ from habsent]
      at hexec
    generalize endAllOf p .expired (peerLost p s) = u at *
    refine ⟨_, hexec, congrArg Peer.state hpeer, congrArg Peer.deadline hpeer, (congrArg Peer.absences hpeer).trans habsent,
      (congrArg Peer.mark hpeer :), (congrArg Peer.level hpeer :), (congrArg Peer.lastHeard hpeer :), fun q hq => ?_, ?_, fun e he horigin hlive => ?_,
      fun hroom hall => ?_, fun hqueue hroom => ?_, hended.ground, hended.cues⟩
    · exact (hended.peers q hq).trans ((peerLost_peer hp s q).trans (if_neg hq))
    · exact liveCount_eq_zero.1 hzero
    · obtain ⟨y, hy, hstep⟩ := hended.own e.key e horigin (entry_of_mem (s := peerLost p s) hd he)
      have hyending : y.state = .ending :=
        liveCount_eq_zero.1 hzero y (State.mem_of_entry hy) ((congrArg Prod.fst (entry_key hy) :).trans horigin)
      rcases hstep with ⟨hending, -⟩ | ⟨-, rfl | ⟨hylive, -⟩⟩
      · exact absurd hending hlive
      · exact ⟨_, hy, rfl, rfl⟩
      · exact absurd hyending hylive
    · rw [hnone hall]
      refine (congrArg SitePort.events (portWith_of_room hroom)).trans ?_
      rw [liveCount_eq_zero.2 hall]
      rfl
    · rw [← hmoved] at hroom ⊢
      exact (hended.posts (.inl hqueue)).postedLast hroom _
  · refine (exec_peerDeadlineReached hr p).trans (congrArg _ (if_neg fun hdue => ?_))
    obtain ⟨-, hpresent, deadline, hdeadline, hreached⟩ := (deadlineReached_iff _ _).1 hdue
    rcases hnot with hnot | ⟨deadline', hdeadline', hahead⟩
    · exact hnot hpresent
    · rw [Option.some.inj (hdeadline.symm.trans hdeadline')] at hreached
      omega

/-! ### A peer that is new, and one that restarts -/

/-- R124, R125: a frame of a peer that is not PRESENT and has no mark makes it PRESENT and stores the frame's mark. -/
theorem hearPeer_new {s : State} {o mark : Byte} (ho : isStation o = true) (hnew : (s.peer o).state ≠ .present)
    (hmark : (s.peer o).mark = none) (kind : Byte) : hearPeer o mark kind s =
      (s.setPeers (s.peers.setIfInBounds (o.toNat - 1) { heardPeer s o with mark := some mark })).setPort
        (portWith ⟨.peerPresent, s.clock.stationTime, o, mark, kind⟩ s.port) := by
  have hpeer : (postEvent .peerPresent o mark kind (s.setPeers (s.peers.setIfInBounds (o.toNat - 1) (heardPeer s o)))).peer o =
      heardPeer s o := by
    rw [postEvent_eq]
    exact heardState_self ho
  rw [hearPeer, updatePeer_heard ho, if_pos hnew, compareMark, hpeer, show (heardPeer s o).mark = none from hmark,
    updatePeer_of_station ho, hpeer, postEvent_eq]
  refine congrArg (fun peers => (s.setPeers peers).setPort _) ?_
  exact Vector.setIfInBounds_setIfInBounds _

/-- R125: a changed mark of a PRESENT peer is a restart. -/
theorem hearPeer_restarts {s : State} {o mark old : Byte} (ho : isStation o = true) (hpresent : (s.peer o).state = .present)
    (hmark : (s.peer o).mark = some old) (hne : old ≠ mark) (kind : Byte) : hearPeer o mark kind s =
      updatePeer o (fun p => { p with lastEnded := none, mark := some mark })
        (restartOrigin o (s.setPeers (s.peers.setIfInBounds (o.toNat - 1) (heardPeer s o)))) := by
  have hpeer : ((s.setPeers (s.peers.setIfInBounds (o.toNat - 1) (heardPeer s o))).peer o).mark = some old :=
    (congrArg Peer.mark (heardState_self ho)).trans hmark
  rw [hearPeer, updatePeer_heard ho, if_neg (not_not.2 hpresent), compareMark, hpeer]
  exact if_neg hne

/-- R7: the table of a peer that restarts, its ENDING entries freed (R5). -/
def endedFreed (o : Byte) (s : State) : State :=
  if s.claims.entries.any (fun e => e.origin == o && !e.live) then
    select (setEntries (s.claims.entries.filter fun e => !(e.origin == o && !e.live)) s)
  else s

theorem restartOrigin_eq (o : Byte) (s : State) : restartOrigin o s = endAllOf o .restarted (endedFreed o s) := rfl

/-- What the freeing of a peer's ended entries leaves: its live ones, and every other entry, their states aside. -/
structure Freed (o : Byte) (s t : State) : Prop where
  ok : SlotOk t
  keys : t.keys = (s.claims.entries.filter fun e => e.origin ≠ o ∨ e.state ≠ .ending).map Entry.key
  stays : ∀ e ∈ s.claims.entries, e.origin ≠ o ∨ e.state ≠ .ending → ∃ y, t.entry e.key = some y ∧ y.alike e
    ∧ (e.state ≠ .ending → y.state ≠ .ending)
  ground : sameGround s t
  cues : t.cues = s.cues
  peers : t.peers = s.peers

theorem stays_iff {o : Byte} {e : Entry} :
    (!(e.origin == o && !e.live)) = decide (e.origin ≠ o ∨ e.state ≠ .ending) := by
  rw [Bool.eq_iff_iff, decide_eq_true_iff, ← live_iff, Bool.not_and, Bool.not_not, Bool.or_eq_true, Bool.not_eq_true', beq_eq_false_iff_ne]

theorem freed_endedFreed {s : State} (h : SlotOk s) (o : Byte) : Freed o s (endedFreed o s) := by
  unfold endedFreed
  split
  · have hok := h.filterEntries (stays := fun e => !(e.origin == o && !e.live)) fun e _ hgone hair => by
      rw [stays_iff, decide_eq_false_iff_not] at hgone
      exact hgone (.inr (by rw [hair]; decide))
    have hfilter : s.claims.entries.filter (fun e => !(e.origin == o && !e.live)) =
        s.claims.entries.filter fun e => e.origin ≠ o ∨ e.state ≠ .ending := List.filter_congr fun e _ => stays_iff
    refine ⟨hok.select, ?_, fun e he hstays => ?_, ?_, by simp, by simp⟩
    · rw [keys_select, keys_setEntries, hfilter]
    · have hmem : e ∈ (setEntries (s.claims.entries.filter fun e => !(e.origin == o && !e.live)) s).claims.entries := by
        show e ∈ s.claims.entries.filter _
        rw [hfilter]
        exact List.mem_filter.2 ⟨he, decide_eq_true hstays⟩
      obtain ⟨st, hfound, hmay⟩ := select_entry hok.distinct (entry_of_mem hok.distinct hmem)
      refine ⟨_, hfound, rfl, fun hlive => ?_⟩
      rcases hmay with (rfl | ⟨-, -, rfl⟩) | ⟨-, rfl⟩
      · exact hlive
      · exact nofun
      · exact nofun
    · unfold sameGround
      simp
  · next hnone =>
    have hall : ∀ e ∈ s.claims.entries, e.origin ≠ o ∨ e.state ≠ .ending := by
      intro e he
      have hstays : (!(e.origin == o && !e.live)) = true := by
        rw [Bool.not_eq_true']
        exact Bool.not_eq_true _ ▸ fun hgone => hnone (List.any_eq_true.2 ⟨e, he, hgone⟩)
      rw [stays_iff] at hstays
      exact of_decide_eq_true hstays
    refine ⟨h, ?_, fun e he _ => ⟨e, entry_of_mem h.distinct he, rfl, id⟩, ⟨rfl, rfl, rfl, rfl, rfl, rfl⟩, rfl, rfl⟩
    rw [List.filter_eq_self.2 fun e he => decide_eq_true (hall e he)]
    rfl

/-- Every claim of the peer that is left was live. -/
theorem Freed.was_live {o : Byte} {s t : State} (h : Freed o s t) {k : Byte × Byte} {y : Entry} (hk : k.1 = o)
    (hy : t.entry k = some y) : y.state ≠ .ending ∧ ∃ e ∈ s.claims.entries, e.key = k ∧ y.alike e := by
  have hmem : y.key ∈ t.keys := List.mem_map_of_mem (State.mem_of_entry hy)
  rw [h.keys, entry_key hy] at hmem
  obtain ⟨e, he, hkey⟩ := List.mem_map.1 hmem
  obtain ⟨hmem', hstays⟩ := List.mem_filter.1 he
  have hstays := of_decide_eq_true hstays
  obtain ⟨z, hz, halike, hlive⟩ := h.stays e hmem' hstays
  rw [hkey, hy] at hz
  obtain rfl := Option.some.inj hz
  exact ⟨hlive (hstays.resolve_left fun hne => hne ((congrArg Prod.fst hkey :).trans hk)), e, hmem', hkey, halike⟩

theorem Freed.remoteOf {o : Byte} {s t : State} (h : Freed o s t) (hd : distinctClaims s) (hr : remoteOf o s) : remoteOf o t := by
  intro k y hk hy
  obtain ⟨-, e, he, hkey, halike⟩ := h.was_live hk hy
  exact (congrArg Entry.isLocal halike :).trans (hr k e hk (hkey ▸ entry_of_mem hd he))

/-- After a restart the claims of the peer are the ones that were live, each ended with cause RESTARTED (R7). -/
theorem restartOrigin_spec {s : State} {o : Byte} (h : SlotOk s) (hr : remoteOf o s) :
    (restartOrigin o s).keys = (s.claims.entries.filter fun e => e.origin ≠ o ∨ e.state ≠ .ending).map Entry.key
    ∧ (∀ e ∈ (restartOrigin o s).claims.entries, e.origin = o →
        e.state = .ending ∧ e.endCause = some .restarted ∧ e.endingSince = some s.clock.stationTime)
    ∧ (∀ e ∈ s.claims.entries, e.origin ≠ o → ∃ y, (restartOrigin o s).entry e.key = some y ∧ y.alike e)
    ∧ (∃ l, (restartOrigin o s).peer o = { s.peer o with lastEnded := l })
    ∧ sameGround s (restartOrigin o s) ∧ (restartOrigin o s).cues = s.cues := by
  have hfreed := freed_endedFreed h o
  obtain ⟨hended, hzero⟩ := endedSome_endAllOf .restarted hfreed.ok (hfreed.remoteOf h.distinct hr)
  rw [restartOrigin_eq]
  generalize endedFreed o s = u at *
  generalize endAllOf o .restarted u = t at *
  have hground := sameGround_trans hfreed.ground hended.ground
  have hclock : u.clock = s.clock := by
    obtain ⟨-, -, hclock, -⟩ := hfreed.ground
    exact hclock
  refine ⟨hended.keys.trans hfreed.keys, fun e he horigin => ?_, fun e he horigin => ?_, ?_, hground, hended.cues.trans hfreed.cues⟩
  · have hending := liveCount_eq_zero.1 hzero e he horigin
    have hentry := entry_of_mem hended.ok.distinct he
    obtain ⟨x, hx⟩ := (entry_isSome_iff hended.keys e.key).1 ⟨e, hentry⟩
    obtain ⟨y, hy, hstep⟩ := hended.own e.key x horigin hx
    obtain rfl := Option.some.inj (hentry.symm.trans hy)
    rcases hstep with ⟨hxending, -⟩ | ⟨-, rfl | ⟨hlive, -⟩⟩
    · exact absurd hxending (hfreed.was_live horigin hx).1
    · exact ⟨rfl, rfl, congrArg (fun c : Clock => some c.stationTime) hclock⟩
    · exact absurd hending hlive
  · obtain ⟨y, hy, halike, -⟩ := hfreed.stays e he (.inl horigin)
    obtain ⟨z, hz, halike'⟩ := hended.others e.key y horigin hy
    exact ⟨z, hz, halike'.trans halike⟩
  · obtain ⟨l, hl⟩ := hended.peer
    exact ⟨l, by rw [hl, peer_congr hfreed.peers]⟩

/-- A NAME frame writes the Name Store alone (R144). -/
theorem namePayload_names (o : Byte) (payload : List Byte) (s : State) : ∃ n, namePayload o payload s = s.setNames n := by
  unfold namePayload
  dsimp only
  split
  · exact ⟨_, rfl⟩
  · exact ⟨s.names, rfl⟩

/-- Settles O43. -/
theorem peersAreHeardAndRestart : Obligations.PeersAreHeardAndRestart := by
  refine ⟨fun f last version text s h hnew hmark hbody hold hroom => ?_,
    fun f last old version text s h hpresent hmark hne hbody hd hlocal hslot => ?_⟩
  · refine (exec_nameFrame h.running last).trans (congrArg _ (h.received.trans ?_))
    rw [hbody, dispatchFrame_eq, hearPeer_new (s := s.setRx (emptiedReceiver s s.rx.counters)) h.sender hnew hmark]
    refine (namePayload_eq f.origin version text _).trans ((if_neg ?_).trans ?_)
    · exact fun hnewer => absurd (hold.symm.trans hnewer) (by decide)
    · exact congrArg (fun port => ((s.setPeers _).setRx _).setPort port) (portWith_of_room hroom)
  · have hexec : exec (.nameFrame last) s = .next (namePayload f.origin f.body.payload (countLink
        (fun c => { c with framesAccepted := inc16 c.framesAccepted }) (hearPeer f.origin f.mark f.body.kindCode
          (s.setRx (emptiedReceiver s s.rx.counters))))) := by
      refine (exec_nameFrame h.running last).trans (congrArg _ (h.received.trans ?_))
      rw [hbody]
      rfl
    have hrestart : hearPeer f.origin f.mark f.body.kindCode (s.setRx (emptiedReceiver s s.rx.counters)) =
        updatePeer f.origin (fun p => { p with lastEnded := none, mark := some f.mark }) (restartOrigin f.origin
          ((s.setRx (emptiedReceiver s s.rx.counters)).setPeers (s.peers.setIfInBounds (f.origin.toNat - 1) (heardPeer s f.origin)))) :=
      hearPeer_restarts (s := s.setRx (emptiedReceiver s s.rx.counters)) h.sender hpresent hmark hne _
    rw [hrestart] at hexec
    have hheard : ((s.setRx (emptiedReceiver s s.rx.counters)).setPeers (s.peers.setIfInBounds (f.origin.toNat - 1)
      (heardPeer s f.origin))).peer f.origin = heardPeer s f.origin := heardState_self h.sender
    obtain ⟨hkeys, hended, hothers, ⟨l, hpeer⟩, ⟨-, -, hclock, hsettings, -, -⟩, hcues⟩ := restartOrigin_spec (o := f.origin)
      (s := (s.setRx (emptiedReceiver s s.rx.counters)).setPeers (s.peers.setIfInBounds (f.origin.toNat - 1) (heardPeer s f.origin)))
      ⟨hd, hslot⟩ (remoteOf_of_locality (s := s) hlocal h.peer)
    rw [hheard] at hpeer
    generalize restartOrigin f.origin ((s.setRx (emptiedReceiver s s.rx.counters)).setPeers (s.peers.setIfInBounds
      (f.origin.toNat - 1) (heardPeer s f.origin))) = r at *
    have hmarked := updatePeer_spec f.origin f.origin (fun p => { p with lastEnded := none, mark := some f.mark }) r
    rw [if_pos ⟨rfl, h.sender⟩, hpeer, updatePeer_of_station h.sender] at hmarked
    rw [updatePeer_of_station h.sender] at hexec
    obtain ⟨n, hnames⟩ := namePayload_names f.origin f.body.payload (countLink
      (fun c => { c with framesAccepted := inc16 c.framesAccepted }) (r.setPeers (r.peers.setIfInBounds (f.origin.toNat - 1)
        { r.peer f.origin with lastEnded := none, mark := some f.mark })))
    rw [hnames] at hexec
    exact ⟨_, hexec, (congrArg Peer.mark hmarked :), (congrArg Peer.lastEnded hmarked :), (congrArg Peer.state hmarked :), hkeys, hended,
      hothers, hsettings, hclock, hcues⟩

end Sys2Proof.Machine
end
section
/-! Own characters on the line: read back equal, and collisions (R106, R113, R115, R117 to R119, R121). -/

namespace Sys2Proof.Machine

/-! ### The backoff draw and the frame that becomes head -/

/-- R115: the frame that is head draws its count, and an empty queue has none. -/
theorem drawBackoff_drawn (s : State) : ∃ b d, drawBackoff s = (s.setTx { s.tx with backoff := b }).setDraws d
    ∧ backoffDrawn s.tx.queue b := by
  cases hq : s.tx.queue with
  | nil =>
    refine ⟨none, s.draws, ?_, rfl⟩
    unfold drawBackoff
    rw [hq]
    rfl
  | cons f q =>
    obtain ⟨b, hb, heq⟩ := drawBackoff_head hq
    exact ⟨some b, s.draws + 1, heq, b, rfl, hb⟩

/-- R111, R115: a frame is placed, and whichever is head then has drawn its count. -/
theorem placeFrame_drawn {f : Frame} {s : State} (h : backoffDrawn s.tx.queue s.tx.backoff) : ∃ b d,
    placeFrame f s = (s.setTx { s.tx with queue := insertFrame f s.tx.queue, backoff := b }).setDraws d
      ∧ backoffDrawn (insertFrame f s.tx.queue) b := by
  unfold placeFrame
  dsimp only
  split
  · next hhead =>
    refine ⟨s.tx.backoff, s.draws, rfl, ?_⟩
    cases hq : s.tx.queue with
    | nil =>
      rw [hq] at hhead
      exact absurd hhead nofun
    | cons g q =>
      rw [hq, List.head?_cons] at hhead
      obtain ⟨l, hl⟩ := List.head?_eq_some_iff.1 hhead
      rw [hl]
      rw [hq] at h
      exact h
  · obtain ⟨b, d, heq, hdrawn⟩ := drawBackoff_drawn (setQueue (insertFrame f s.tx.queue) s)
    exact ⟨b, d, heq, hdrawn⟩

/-- The head leaves the queue: its successor has drawn its count, and the renewal mark of a PRESENCE is taken up (R113, R115). -/
theorem leaveHead_left {s : State} {f : Frame} {q : List Frame} (hq : s.tx.queue = f :: q) (halone : presenceAlone f q) :
    ∃ b d after,
      after = (if f.isPresence && f.inTransmission && s.tx.renewal then
          insertFrame ⟨s.settings.station, s.claims.startMark, .presence s.presence.level s.settings.fingerprint, false, 1⟩ q
        else q)
      ∧ backoffDrawn after b
      ∧ leaveHead s = (s.setTx { s.tx with
          queue := after, backoff := b,
          renewal := s.tx.renewal && !(f.isPresence && f.inTransmission && s.tx.renewal) }).setDraws d := by
  obtain ⟨b, d, hdraw, hdrawn⟩ := drawBackoff_drawn (setQueue q s)
  unfold leaveHead
  rw [hq]
  dsimp only
  rw [hdraw]
  by_cases hrenewed : (f.isPresence && f.inTransmission && s.tx.renewal) = true
  · have hpresence : f.isPresence = true := by
      rw [Bool.and_eq_true, Bool.and_eq_true] at hrenewed
      exact hrenewed.1.1
    obtain ⟨hothers, hroom⟩ := halone hpresence
    obtain ⟨b', d', hplaced, hdrawn'⟩ := placeFrame_drawn
      (f := ⟨s.settings.station, s.claims.startMark, .presence s.presence.level s.settings.fingerprint, false, 1⟩)
      (s := (s.setTx { s.tx with queue := q, backoff := b, renewal := false }).setDraws d) hdrawn
    refine ⟨b', d', _, (if_pos hrenewed).symm, hdrawn', ?_⟩
    rw [hrenewed, Bool.not_true, Bool.and_false]
    refine (if_pos hrenewed).trans (Eq.trans ?_ hplaced)
    refine (offer_presence_new (s := (s.setTx { s.tx with queue := q, backoff := b, renewal := false }).setDraws d) hothers).trans ?_
    exact offerFrame_room _ _ hroom
  · refine ⟨b, d, _, (if_neg hrenewed).symm, hdrawn, ?_⟩
    rw [Bool.not_eq_true] at hrenewed
    rw [hrenewed, Bool.not_false, Bool.and_true]
    exact if_neg fun h => absurd (hrenewed.symm.trans h) (by decide)

/-! ### Characters read back equal -/

theorem exec_characterReadBack {s : State} {a : Attempt} (hr : s.running = true) (hsending : s.tx.sending = some a) :
    exec .characterReadBack s = .next (readBackEqual a s) := by
  refine (unlessHeld_eq (free_of_running hr)).trans (congrArg _ ?_)
  rw [ownCharacterReturns, hsending]

theorem exec_frameSent {s : State} {a : Attempt} (hr : s.running = true) (hsending : s.tx.sending = some a) :
    exec .frameSent s = .next (readBackEqual a s) := exec_characterReadBack hr hsending

theorem readBackEqual_next {s : State} {a : Attempt} {r : Receiver}
    (hreceived : receiveCharacter (byteAt a.chars a.index) false true s = s.setRx r) (hgoes : a.stopping = false)
    (hmore : a.index + 1 < a.chars.length) :
    readBackEqual a s = (s.setRx r).setTx { s.tx with sending := some { a with index := a.index + 1 } } := by
  rw [readBackEqual, hreceived]
  dsimp only
  rw [hgoes]
  exact if_pos hmore

theorem readBackEqual_stopped {s : State} {a : Attempt} {r : Receiver}
    (hreceived : receiveCharacter (byteAt a.chars a.index) false true s = s.setRx r) (hstops : a.stopping = true) :
    readBackEqual a s = (s.setRx r).setTx { s.tx with sending := none, driverEnable := false } := by
  rw [readBackEqual, hreceived]
  dsimp only
  rw [hstops]
  rfl

theorem readBackEqual_last {s : State} {a : Attempt} {r : Receiver}
    (hreceived : receiveCharacter (byteAt a.chars a.index) false true s = s.setRx r) (hgoes : a.stopping = false)
    (hlast : a.index + 1 = a.chars.length) : readBackEqual a s = leaveHead ((s.setRx
      { r with counters := { r.counters with framesSent := plusOne r.counters.framesSent } }).setTx
        { s.tx with sending := none, driverEnable := false }) := by
  rw [readBackEqual, hreceived]
  dsimp only
  rw [hgoes]
  exact if_neg (Nat.not_lt.2 hlast.ge)

/-- The receiver takes an own character like any other. -/
theorem receiveCharacter_own {s : State} (hr : s.running = true) {c : Byte} {r : Receiver}
    (h : (s.rx.state = .ready ∧ c = 0xC3
          ∧ r = { s.rx with line := .busy, state := .assembling, length := none, buffer := [], framing := false, own := true })
        ∨ (s.rx.state = .assembling ∧ s.rx.length = none ∧ 3 ≤ c.toNat ∧ c.toNat ≤ 20
          ∧ r = { s.rx with line := .busy, length := some c })
        ∨ (∃ l, s.rx.state = .assembling ∧ s.rx.length = some l ∧ s.rx.buffer.length + 1 < l.toNat + 2
          ∧ r = { s.rx with line := .busy, buffer := s.rx.buffer ++ [c] })) :
    receiveCharacter c false true s = s.setRx r := by
  rcases h with ⟨hs, rfl, rfl⟩ | ⟨hs, hl, hlow, htop, rfl⟩ | ⟨l, hs, hl, hlt, rfl⟩
  · exact receiveCharacter_start hr hs true
  · rw [receiveCharacter_assembling hr hs, assemble_length (by exact hl) hlow htop, Bool.or_false, Bool.and_true]
    rfl
  · rw [receiveCharacter_assembling hr hs, assemble_stores (by exact hl) (by exact hlt), Bool.or_false, Bool.and_true]
    rfl

/-- Settles O46. -/
theorem ownCharactersAreReadBack : Obligations.OwnCharactersAreReadBack := by
  refine ⟨fun a s hr hs hsending => ?_, fun f q a l s hr hq hsending hgoes hlast halone hs hown hl hcomplete => ?_,
    fun a r s hr hsending => ?_⟩
  · have hreceived := receiveCharacter_waitIdle hr hs (byteAt a.chars a.index) false true
    exact ⟨fun hgoes hmore => (exec_characterReadBack hr hsending).trans (congrArg _ (readBackEqual_next hreceived hgoes hmore)),
      fun hstops => (exec_characterReadBack hr hsending).trans (congrArg _ (readBackEqual_stopped hreceived hstops))⟩
  · have hreceived : receiveCharacter (byteAt a.chars a.index) false true s = s.setRx (emptiedReceiver s s.rx.counters) := by
      rw [receiveCharacter_assembling hr hs, assemble_completes (by exact hl) (by exact hcomplete), Bool.and_true]
      exact if_pos hown
    have hexec := (exec_frameSent hr hsending).trans (congrArg _ (readBackEqual_last hreceived hgoes hlast))
    obtain ⟨b, d, after, hafter, hdrawn, hleft⟩ := leaveHead_left (s := (s.setRx (emptiedReceiver s
      { s.rx.counters with framesSent := plusOne s.rx.counters.framesSent })).setTx { s.tx with sending := none, driverEnable := false })
      hq halone
    refine ⟨_, hexec.trans (congrArg _ hleft), ⟨b, ?_, ?_⟩, rfl, ⟨rfl, rfl, rfl, rfl, rfl, rfl⟩, rfl, rfl, rfl, rfl, rfl, rfl, rfl⟩
    · rw [hafter] at hdrawn
      exact hdrawn
    · rw [hafter]
      rfl
  · intro c busy h
    have hreceived := receiveCharacter_own hr h
    exact ⟨fun hgoes hmore => (exec_characterReadBack hr hsending).trans (congrArg _ (readBackEqual_next hreceived hgoes hmore)),
      fun hstops => (exec_characterReadBack hr hsending).trans (congrArg _ (readBackEqual_stopped hreceived hstops))⟩

/-! ### Collisions -/

/-- The attempt is over and the collision counted (R118). -/
def collisionCounted (s : State) : State := countLink (fun k => { k with collisions := inc16 k.collisions }) (endAttempt s)

/-- The transmitter's side of a collision (R118, R119, R121). -/
def collided (a : Attempt) (s : State) : State := if a.stopping then endAttempt s else afterCollision (collisionCounted s)

theorem collided_of_stopping {a : Attempt} (h : a.stopping = true) (s : State) : collided a s = endAttempt s := if_pos h

theorem collided_of_not_stopping {a : Attempt} (h : a.stopping = false) (s : State) :
    collided a s = afterCollision (collisionCounted s) := if_neg (by rw [h]; decide)

theorem exec_collision {s : State} {a : Attempt} {c : Byte} {e : Bool} (hr : s.running = true) (hsending : s.tx.sending = some a)
    (h : c ≠ byteAt a.chars a.index ∨ e = true) : exec (.collision c e) s = .next (receiveCharacter c e false (collided a s)) := by
  refine (unlessHeld_eq (free_of_running hr)).trans (congrArg _ ?_)
  rw [ownCharacterReturns, hsending]
  refine if_neg ?_
  rintro ⟨hc, he⟩
  rcases h with h | h
  · exact h hc
  · rw [he] at h
    cases h

theorem offer_sending (b : FrameBody) (s : State) : (offer b s).tx.sending = s.tx.sending := by
  have hplace (f : Frame) (t : State) : (placeFrame f t).tx.sending = t.tx.sending := (placeFrame_spec f t).2.2.1
  have hframe (f : Frame) : (offerFrame f s).tx.sending = s.tx.sending := by
    unfold offerFrame
    split
    · exact hplace _ _
    · dsimp only
      split
      · split
        · exact (hplace _ _).trans (by rw [frameDropped_tx]; rfl)
        · rfl
      · exact congrArg Transmitter.sending (frameDropped_tx _ _ _ _)
  rcases offer_spec b s with h | ⟨_, _, _, _, _, _, _, h⟩ | ⟨_, _, ⟨_, h⟩ | ⟨_, h⟩⟩ <;> rw [h]
  · exact hframe _
  · rfl
  · rfl
  · rfl

theorem leaveHead_sending (s : State) : (leaveHead s).tx.sending = s.tx.sending := by
  unfold leaveHead
  split
  · rfl
  · next f q _ =>
    have hdraw : (drawBackoff (setQueue q s)).tx.sending = s.tx.sending := (drawBackoff_attempt _).1
    dsimp only
    split
    · exact (offer_sending _ _).trans hdraw
    · exact hdraw

/-- R118: the head takes the next attempt number and draws again. -/
theorem afterCollision_retries {s : State} {f : Frame} {q : List Frame} (hq : s.tx.queue = f :: q) (h : f.attempt < 5) :
    ∃ n d, afterCollision s = (s.setTx { s.tx with queue := { f with attempt := f.attempt + 1 } :: q, backoff := some n }).setDraws d
      ∧ n < 2 ^ (f.attempt + 1) := by
  have hraised : raiseAttempt s = setQueue ({ f with attempt := f.attempt + 1 } :: q) s := by
    unfold raiseAttempt
    rw [hq]
  obtain ⟨n, hn, heq⟩ := drawBackoff_head (s := setQueue ({ f with attempt := f.attempt + 1 } :: q) s) rfl
  refine ⟨n, s.draws + 1, ?_, hn⟩
  unfold afterCollision
  rw [hq]
  refine (if_pos h).trans ?_
  rw [hraised, heq]
  rfl

/-- R119: the head is dropped, its attempts spent. -/
def headDropped (f : Frame) (s : State) : State :=
  (s.setRx { s.rx with counters := { s.rx.counters with framesDropped := plusOne s.rx.counters.framesDropped } }).setPort
    (portWith ⟨.frameDropped, s.clock.stationTime, f.body.kindCode, 1, 5⟩ s.port)

theorem afterCollision_drops {s : State} {f : Frame} {q : List Frame} (hq : s.tx.queue = f :: q) (h : f.attempt = 5) :
    afterCollision s = leaveHead (headDropped f s) := by
  unfold afterCollision
  rw [hq]
  refine (if_neg (by rw [h]; decide)).trans (congrArg leaveHead ?_)
  rw [frameDropped, postEvent_eq]
  rfl

theorem afterCollision_rx (s : State) : ∃ k, (afterCollision s).rx = { s.rx with counters := k } := by
  cases hq : s.tx.queue with
  | nil =>
    refine ⟨s.rx.counters, ?_⟩
    unfold afterCollision
    rw [hq]
  | cons f q =>
    unfold afterCollision
    rw [hq]
    dsimp only
    split
    · exact ⟨s.rx.counters, by simp⟩
    · obtain ⟨k, hk⟩ := leaveHead_rx (frameDropped f.body 1 5 s)
      exact ⟨k, by rw [hk, frameDropped_rx]⟩

theorem afterCollision_sending (s : State) : (afterCollision s).tx.sending = s.tx.sending := by
  unfold afterCollision
  split
  · rfl
  · split
    · refine (drawBackoff_attempt _).1.trans ?_
      unfold raiseAttempt
      split <;> rfl
    · exact (leaveHead_sending _).trans (congrArg Transmitter.sending (frameDropped_tx _ _ _ _))

theorem afterCollision_running {s : State} (hr : s.running = true) : (afterCollision s).running = true := by
  refine State.running_congr ?_ hr
  simp

/-- What the receiver makes of a character that came back as another (R106): it is a stray, a length character, or one of an
assembly that is another station's from then on. -/
theorem receiveCharacter_collided {s : State} {own c : Byte} {e : Bool} {after : LinkCounters → Receiver} (hne : c ≠ own ∨ e = true)
    (h : (s.rx.state = .waitIdle ∧ after = fun k => { s.rx with line := .busy, counters := k })
      ∨ (s.rx.state = .ready ∧ own = 0xC3 ∧ after = fun k => emptiedReceiver s { k with stray := plusOne k.stray })
      ∨ (s.rx.state = .assembling ∧ s.rx.length = none ∧ (c.toNat < 3 ∨ 20 < c.toNat)
        ∧ after = fun k => emptiedReceiver s { k with malformed := plusOne k.malformed })
      ∨ (s.rx.state = .assembling ∧ s.rx.length = none ∧ 3 ≤ c.toNat ∧ c.toNat ≤ 20
        ∧ after = fun k => { s.rx with line := .busy, framing := s.rx.framing || e, own := false, length := some c, counters := k })
      ∨ (∃ l, s.rx.state = .assembling ∧ s.rx.length = some l ∧ s.rx.buffer.length + 1 < l.toNat + 2
        ∧ after = fun k =>
          { s.rx with line := .busy, framing := s.rx.framing || e, own := false, buffer := s.rx.buffer ++ [c], counters := k }))
    {t : State} {k : LinkCounters} (hr : t.running = true) (hrx : t.rx = { s.rx with counters := k }) :
    receiveCharacter c e false t = t.setRx (after k) := by
  rcases h with ⟨hs, rfl⟩ | ⟨hs, rfl, rfl⟩ | ⟨hs, hl, hc, rfl⟩ | ⟨hs, hl, hlow, htop, rfl⟩ | ⟨l, hs, hl, hlt, rfl⟩
  · rw [receiveCharacter_waitIdle hr (by rw [hrx]; exact hs), busyRx, hrx]
  · rw [receiveCharacter_stray hr (by rw [hrx]; exact hs) hne, emptiedReceiver, hrx]
    rfl
  · rw [receiveCharacter_assembling hr (by rw [hrx]; exact hs), assemble_badLength (by rw [busyRx, hrx]; exact hl) hc, Bool.and_false,
      if_neg (by decide), busyRx, hrx]
    rfl
  · rw [receiveCharacter_assembling hr (by rw [hrx]; exact hs), assemble_length (by rw [busyRx, hrx]; exact hl) hlow htop,
      Bool.and_false, busyRx, hrx]
    rfl
  · rw [receiveCharacter_assembling hr (by rw [hrx]; exact hs), assemble_stores (l := l) (by rw [busyRx, hrx]; exact hl)
      (by rw [busyRx, hrx]; exact hlt), Bool.and_false, busyRx, hrx]
    rfl

theorem collided_running {a : Attempt} {s : State} (hr : s.running = true) : (collided a s).running = true := by
  refine State.running_congr ?_ hr
  unfold collided
  split <;> simp [endAttempt, collisionCounted, countLink]

/-- The queue after the head was dropped, in the words of the claims. -/
theorem collided_drops {s : State} {a : Attempt} {f : Frame} {q : List Frame} (hgoes : a.stopping = false)
    (hq : s.tx.queue = f :: q) (hattempt : f.attempt = 5) (halone : presenceAlone f q) :
    ∃ tx d, collided a s = ((headDropped f (collisionCounted s)).setTx tx).setDraws d ∧ headLeft f q s tx := by
  obtain ⟨b, d, q', hq', hdrawn, hleft⟩ := leaveHead_left (s := headDropped f (collisionCounted s)) hq halone
  refine ⟨_, d, ((collided_of_not_stopping hgoes s).trans (afterCollision_drops (s := collisionCounted s) hq hattempt)).trans hleft,
    b, ?_, ?_⟩
  · rw [hq'] at hdrawn
    exact hdrawn
  · rw [hq']
    rfl

theorem collided_retries {s : State} {a : Attempt} {f : Frame} {q : List Frame} (hgoes : a.stopping = false)
    (hq : s.tx.queue = f :: q) (hattempt : f.attempt < 5) : ∃ n d, collided a s = ((collisionCounted s).setTx
      { s.tx with queue := { f with attempt := f.attempt + 1 } :: q, sending := none, driverEnable := false, backoff := some n }).setDraws d
      ∧ n < 2 ^ (f.attempt + 1) := by
  obtain ⟨n, d, hretry, hn⟩ := afterCollision_retries (s := collisionCounted s) hq hattempt
  exact ⟨n, d, (collided_of_not_stopping hgoes s).trans hretry, hn⟩

/-- Settles O47. -/
theorem collisionsRetryOrDrop : Obligations.CollisionsRetryOrDrop := by
  refine ⟨fun a c l s hr hsending hgoes hne hs hl hlt => ?_, ?_⟩
  · obtain ⟨k, hk⟩ := afterCollision_rx (collisionCounted s)
    have hexec := exec_collision (e := false) hr hsending (.inl hne)
    rw [collided_of_not_stopping hgoes, receiveCharacter_collided (s := s) (own := byteAt a.chars a.index)
      (t := afterCollision (collisionCounted s)) (k := k) (.inl hne) (.inr (.inr (.inr (.inr ⟨l, hs, hl, hlt, rfl⟩))))
      (afterCollision_running (s := collisionCounted s) hr) hk] at hexec
    refine ⟨_, hexec, ?_⟩
    rw [State.setRx_rx]
    exact ⟨hs, rfl, hl, rfl, Bool.or_false _, afterCollision_sending (collisionCounted s)⟩
  · intro a c e after s hr hsending hne foreign hafter k
    have hreceives (t : State) (k : LinkCounters) (hr : t.running = true) (hrx : t.rx = { s.rx with counters := k }) :
      receiveCharacter c e false t = t.setRx (after k) := receiveCharacter_collided hne hafter hr hrx
    have hexec := exec_collision hr hsending hne
    refine ⟨fun hstops => ?_, fun hgoes f q hq => ⟨fun hattempt => ?_, fun hattempt halone => ?_⟩⟩
    · rw [hexec, collided_of_stopping hstops, hreceives (endAttempt s) k hr rfl]
      rfl
    · obtain ⟨n, d, hretry, hn⟩ := collided_retries hgoes hq hattempt
      rw [hreceives (collided a s) { k with collisions := plusOne k.collisions } (collided_running hr) (by rw [hretry]; rfl), hretry]
        at hexec
      refine ⟨_, n, hexec, hn, rfl, State.setRx_rx _ _, ?_, ?_, ?_, ?_⟩
      · simp [collisionCounted, countLink, endAttempt]
      · unfold sameGround
        simp [collisionCounted, countLink, endAttempt]
      · simp [collisionCounted, countLink, endAttempt]
      · simp [collisionCounted, countLink, endAttempt]
    · obtain ⟨tx, d, hdrop, hleft⟩ := collided_drops hgoes hq hattempt halone
      rw [hreceives (collided a s) { k with collisions := plusOne k.collisions, framesDropped := plusOne k.framesDropped }
        (collided_running hr) (by rw [hdrop]; rfl), hdrop] at hexec
      refine ⟨_, hexec, ?_, State.setRx_rx _ _, ?_, ?_, ?_, ?_⟩
      · rw [State.setRx_tx]
        exact hleft
      · simp [headDropped, collisionCounted, countLink, endAttempt]
      · unfold sameGround
        simp [headDropped, collisionCounted, countLink, endAttempt]
      · simp [headDropped, collisionCounted, countLink, endAttempt]
      · simp [headDropped, collisionCounted, countLink, endAttempt]

end Sys2Proof.Machine
end
section
/-! STATUS (R174, R190) and the port's answers by run state (R171, R172, R188, R189). -/

namespace Sys2Proof.Machine

/-! ### The status record -/

theorem toList_four {α : Type} (v : Vector α 4) : v.toList = [v[0], v[1], v[2], v[3]] := by
  obtain ⟨⟨l⟩, hl⟩ := v
  match l, hl with
  | [a, b, c, d], _ => rfl

theorem onAirSummary_none {s : State} (h : s.selector.onAir = none) : onAirSummary s = [0, 0, 0, 0] := by
  rw [onAirSummary, State.onAirEntry, h]

theorem onAirSummary_some {s : State} {e : Entry} (h : s.selector.onAir = some e.key) (he : s.entry e.key = some e) :
    onAirSummary s = [e.origin, e.number, e.cls.code, BitVec.ofNat 8 e.score] := by
  have hentry : s.onAirEntry = some e := by
    rw [State.onAirEntry, h]
    exact he
  rw [onAirSummary, hentry]
  rfl

theorem exists_onAirSummary (s : State) : ∃ a b c d, onAirSummary s = [a, b, c, d] := by
  unfold onAirSummary
  split
  · exact ⟨0, 0, 0, 0, rfl⟩
  · exact ⟨_, _, _, _, rfl⟩

/-- The record with its four summary bytes and its four holds written out: every field then stands at a fixed offset. -/
theorem statusRecord_eq {s : State} {a b c d : Byte} (h : onAirSummary s = [a, b, c, d]) : statusRecord s =
    [s.loader.runState.code, countByte s.loader.faultCause, if s.loader.runState = .running then s.settings.station else 0,
      s.claims.startMark]
    ++ halfBytes (if s.loader.runState = .running then s.settings.fingerprint else 0)
    ++ [s.reference.state.code, flagByte s.reference.present, s.presence.level.code]
    ++ [a, b, c, d]
    ++ [s.selector.sequence, countByte s.claims.entries.length, countByte s.port.events.length, flagByte s.port.overflow]
    ++ halfBytes s.names.applied.version
    ++ [s.names.applied.origin, flagByte s.names.pendingName.isSome]
    ++ (countBytes s.settings.stages[0].hold ++ countBytes s.settings.stages[1].hold ++ countBytes s.settings.stages[2].hold
      ++ countBytes s.settings.stages[3].hold)
    ++ counterBytes s.rx.counters
    ++ countBytes s.claims.stale
    ++ countBytes s.claims.outside := by
  have hholds : (s.settings.stages.toList.flatMap fun st => countBytes st.hold) =
      countBytes s.settings.stages[0].hold ++ countBytes s.settings.stages[1].hold ++ countBytes s.settings.stages[2].hold
        ++ countBytes s.settings.stages[3].hold := by
    rw [toList_four]
    rfl
  rw [statusRecord, h, hholds]

theorem exec_status {s : State} (hheld : s.loader.resetHeld = false) (hrestart : s.port.restartDue = false) :
    exec .status s = .next (s.setPort { s.port with output := 0xA0 :: statusRecord s }) := atPort_eq hheld hrestart

/-- Settles O57. -/
theorem statusReturnsTheRecord : Obligations.StatusReturnsTheRecord := by
  intro s hheld hrestart
  obtain ⟨a, b, c, d, hsummary⟩ := exists_onAirSummary s
  have hrecord := statusRecord_eq hsummary
  refine ⟨_, statusRecord s, exec_status hheld hrestart, rfl, by rw [hrecord]; rfl,
    exec_status (s := s.setPort { s.port with output := 0xA0 :: statusRecord s }) hheld hrestart, ?_, by rw [hrecord]; rfl,
    by rw [hrecord]; rfl, by rw [hrecord]; rfl, by rw [hrecord]; rfl, by rw [hrecord]; rfl, ?_, ?_, by rw [hrecord]; rfl, ?_,
    by rw [hrecord]; rfl, by rw [hrecord]; rfl, ?_, fun i => ?_, fun i => ?_, by rw [hrecord]; rfl, by rw [hrecord]; rfl,
    by rw [hrecord]; rfl, by rw [hrecord]; rfl, fun hnone => ?_, fun e hair he => ?_⟩
  · rw [hrecord]
    cases s.loader.runState <;> rfl
  · rw [hrecord]
    refine Eq.trans (b := halfBytes (if s.loader.runState = .running then s.settings.fingerprint else 0)) rfl ?_
    split <;> rfl
  · rw [hrecord]
    show s.reference.state.code = _
    cases s.reference.state <;> rfl
  · rw [hrecord]
    show s.presence.level.code = _
    cases s.presence.level <;> rfl
  · rw [hrecord]
    show flagByte s.names.pendingName.isSome = _
    cases s.names.pendingName <;> rfl
  · rw [hrecord]
    match i with
    | 0 => rfl
    | 1 => rfl
    | 2 => rfl
    | 3 => rfl
  · rw [hrecord]
    fin_cases i <;> rfl
  · have hzero := onAirSummary_none hnone
    rw [statusRecord_eq hzero]
    rfl
  · rw [statusRecord_eq (onAirSummary_some hair he)]
    rfl

/-! ### The port's replies -/

/-- The data output holds a reply, which is no 0x00, and its data. -/
def Replies (t : State) : Prop := ∃ r rest, t.port.output = r :: rest ∧ r ≠ 0

theorem replies_answer (r : Reply) (s : State) : Replies (answer r s) := ⟨r.code, [], rfl, by cases r <;> decide⟩

theorem replies_accepted (bytes : List Byte) (s : State) : Replies (portReturns (Reply.accepted.code :: bytes) s) :=
  ⟨Reply.accepted.code, bytes, rfl, by decide⟩

theorem replies_manualCue (p : Byte) (s : State) : Replies (manualCue p s) := by
  unfold manualCue
  dsimp only
  split
  · unfold manualStart
    split
    · exact replies_answer _ _
    · split
      · exact replies_answer _ _
      · split <;> exact replies_answer _ _
  · split
    · unfold manualStop
      split <;> exact replies_answer _ _
    · exact replies_answer _ _

section
variable {s : State} (hheld : s.loader.resetHeld = false) (hrestart : s.port.restartDue = false)
include hheld hrestart

theorem atPort_replies {f : State → State} (h : ∀ s, Replies (f s)) : ∃ t, atPort f s = .next t ∧ Replies t :=
  ⟨_, atPort_eq hheld hrestart, h s⟩

theorem atRunningPort_replies {f : State → State} (h : ∀ s, Replies (f s)) : ∃ t, atRunningPort f s = .next t ∧ Replies t := by
  refine atPort_replies hheld hrestart fun s => ?_
  split
  · exact h s
  · exact replies_answer _ _

theorem exec_unknownCommand {code : Byte} (h : code ∉ knownCommandCodes) :
    exec (.unknownCommand code) s = .next (answer .unknown s) := by
  refine (atPort_eq hheld hrestart).trans (congrArg _ (if_neg ?_))
  rwa [List.contains_iff_mem]

/-- What R171 asks of the part's answer to a transaction of this command byte. -/
def AnswersWhole (code : Byte) (rest : List Byte) (t : State) : Prop :=
  (rest.length < commandLength code - 1 → t.port.output = []) ∧ (commandLength code - 1 ≤ rest.length → Replies t)

omit hheld hrestart in
theorem answersWhole_of_replies {code : Byte} {rest : List Byte} {c : Instr} (h : ∃ t, exec c s = .next t ∧ Replies t)
    (hwhole : commandLength code - 1 ≤ rest.length) : ∃ t, exec c s = .next t ∧ AnswersWhole code rest t := by
  obtain ⟨t, hexec, hreplies⟩ := h
  exact ⟨t, hexec, fun hshort => absurd hwhole (Nat.not_le.2 hshort), fun _ => hreplies⟩

omit hheld hrestart in
theorem answersWhole_of_abandoned {code : Byte} {rest : List Byte} (hshort : rest.length < commandLength code - 1) :
    ∃ t, exec .transactionAbandoned s = .next t ∧ AnswersWhole code rest t :=
  ⟨_, rfl, fun _ => rfl, fun hwhole => absurd hwhole (Nat.not_le.2 hshort)⟩

/-- A whole command is answered, and one that ends early is not (R171). -/
theorem exec_transaction (code : Byte) (rest : List Byte) :
    ∃ t, exec (decodeTransaction (code :: rest)) s = .next t ∧ AnswersWhole code rest t := by
  unfold decodeTransaction
  dsimp only
  split
  · next h => exact answersWhole_of_replies (atPort_replies hheld hrestart fun _ => replies_accepted _ _) (by rw [h]; exact Nat.zero_le _)
  split
  · next h => exact answersWhole_of_replies (atPort_replies hheld hrestart fun _ => ⟨_, _, rfl, by decide⟩) (by rw [h]; exact Nat.zero_le _)
  split
  · next h =>
    exact answersWhole_of_replies (atRunningPort_replies hheld hrestart fun _ => replies_accepted _ _) (by rw [h]; exact Nat.zero_le _)
  split
  · next h =>
    exact answersWhole_of_replies (atRunningPort_replies hheld hrestart fun _ => replies_accepted _ _) (by rw [h]; exact Nat.zero_le _)
  split
  · next h =>
    exact answersWhole_of_replies (atRunningPort_replies hheld hrestart fun _ => replies_accepted _ _) (by rw [h]; exact Nat.zero_le _)
  split
  · next h =>
    have hlength : commandLength code - 1 = 12 := by rw [h]; rfl
    split
    · next hshort => exact answersWhole_of_abandoned (by rw [hlength]; exact hshort)
    · next hwhole =>
      exact answersWhole_of_replies (atRunningPort_replies hheld hrestart fun _ => replies_answer _ _)
        (by rw [hlength]; exact Nat.not_lt.1 hwhole)
  split
  · next h =>
    have hlength : commandLength code - 1 = 1 := by rw [h]; rfl
    split
    · exact answersWhole_of_abandoned (by rw [hlength]; exact Nat.zero_lt_one)
    · next p l =>
      have hwhole : commandLength code - 1 ≤ (p :: l).length := by rw [hlength]; exact Nat.succ_le_succ (Nat.zero_le _)
      split
      · exact answersWhole_of_replies (atRunningPort_replies hheld hrestart (replies_manualCue _)) hwhole
      · split
        · exact answersWhole_of_replies (atRunningPort_replies hheld hrestart (replies_manualCue _)) hwhole
        · exact answersWhole_of_replies (atRunningPort_replies hheld hrestart (replies_manualCue _)) hwhole
  split
  · next h =>
    exact answersWhole_of_replies (atRunningPort_replies hheld hrestart fun _ => replies_answer _ _) (by rw [h]; exact Nat.zero_le _)
  split
  · next h => exact answersWhole_of_replies (atPort_replies hheld hrestart fun _ => ⟨_, _, rfl, by decide⟩) (by rw [h]; exact Nat.zero_le _)
  · next h1 h2 h3 h4 h5 h6 h7 h8 h9 =>
    have hlength : commandLength code = 1 := by rw [commandLength, if_neg h6, if_neg h7]
    have hunknown : code ∉ knownCommandCodes := by
      simp only [knownCommandCodes, List.mem_cons, List.not_mem_nil, or_false, not_or]
      exact ⟨h1, h2, h3, h4, h5, h6, h7, h8, h9⟩
    exact answersWhole_of_replies ⟨_, exec_unknownCommand hheld hrestart hunknown, replies_answer _ _⟩
      (by rw [hlength]; exact Nat.zero_le _)

end

/-! ### Bytes and bits of a transaction (R171, R188) -/

theorem commandLength_eq (code : Byte) : commandLength code = 1 + if code = 0x10 then 12 else if code = 0x11 then 1 else 0 := by
  unfold commandLength
  split_ifs <;> rfl

theorem byteSent_of_lt {t : State} {code : Byte} {i : Nat} (h : i < commandLength code) : t.byteSent code i = 0x00 := if_pos h

theorem byteSent_behind (t : State) (code : Byte) (i : Nat) : t.byteSent code (commandLength code + i) = byteAt t.port.output i := by
  rw [State.byteSent, if_neg (by omega), Nat.add_sub_cancel_left]
  rfl

theorem byteSent_of_empty {t : State} {code : Byte} (h : t.port.output = []) (i : Nat) : t.byteSent code i = 0x00 := by
  unfold State.byteSent
  rw [h]
  split <;> rfl

theorem bitSent_eq (t : State) (code : Byte) {i j : Nat} (hj : j < 8) :
    t.bitSent code (8 * i + j) = (t.byteSent code i).getLsbD (7 - j) := by
  have hdiv : (8 * i + j) / 8 = i := by omega
  have hmod : (8 * i + j) % 8 = j := by omega
  rw [State.bitSent, hdiv, hmod, BitVec.getMsbD, decide_eq_true hj, Bool.true_and]

/-- The bits of a byte, the most significant first. -/
def bitsOfByte (b : Byte) : List Bool := (List.range 8).map fun j => b.getLsbD (7 - j)

theorem bytesOfBits_cons (b : Byte) (bits : List Bool) : bytesOfBits (bitsOfByte b ++ bits) = b :: bytesOfBits bits :=
  congrArg (· :: bytesOfBits bits) (congrArg Prod.fst (characterOf_levels b true))

theorem bytesOfBits_partial {bits : List Bool} (h : bits.length < 8) : bytesOfBits bits = [] := by
  unfold bytesOfBits
  split
  · simp only [List.length_cons] at h
    omega
  · rfl

theorem bytesOfBits_bytes (bytes : List Byte) {partialByte : List Bool} (h : partialByte.length < 8) :
    bytesOfBits (bytes.flatMap bitsOfByte ++ partialByte) = bytes := by
  induction bytes with
  | nil => exact bytesOfBits_partial h
  | cons b bytes ih => rw [List.flatMap_cons, List.append_assoc, bytesOfBits_cons, ih]

/-- Settles O59. -/
theorem portAnswersByRunState : Obligations.PortAnswersByRunState := by
  intro s hheld hrestart answers
  refine ⟨fun hr => ?_, fun code hcode => exec_unknownCommand hheld hrestart hcode, atPort_eq hheld hrestart, rfl, fun code rest => ?_,
    fun bytes partialByte hpartial => congrArg decodeTransaction (bytesOfBits_bytes bytes hpartial)⟩
  · have hrefused {c : Instr} {f : State → State} (h : exec c s = atRunningPort f s) : answers c [0xA3] :=
      h.trans (atRunningPort_eq_of_not hheld hrestart hr)
    have hhistory : answers .cueHistory [0xA3] :=
      hrefused (f := fun s => portReturns (Reply.accepted.code :: historyReport s) (mapChannels Channel.reported s)) rfl
    have hpeers : answers .peers [0xA3] :=
      hrefused (f := fun s => portReturns (Reply.accepted.code :: peersReport s) (clearPeerCounts s)) rfl
    exact ⟨hrefused rfl, hpeers, hhistory, fun _ => hrefused rfl, hrefused rfl, hrefused rfl, hrefused rfl⟩
  · intro parameters
    have hlength : commandLength code = 1 + parameters := commandLength_eq code
    have hpast : commandLength code - 1 = parameters := by omega
    obtain ⟨t, hexec, hshort, hwhole⟩ := exec_transaction hheld hrestart code rest
    rw [hpast] at hshort hwhole
    refine ⟨t, hexec, fun i hi => byteSent_of_lt (hlength ▸ hi), fun i => hlength ▸ byteSent_behind t code i,
      fun h i => byteSent_of_empty (hshort h) i, fun h => ?_, fun i j hj => bitSent_eq t code hj⟩
    obtain ⟨r, data, houtput, hr⟩ := hwhole h
    rw [← hlength, ← Nat.add_zero (commandLength code), byteSent_behind, houtput]
    exact hr

end Sys2Proof.Machine
end
section
/-! CLEAR (R58, R83, R121, R123, R187). -/

namespace Sys2Proof.Machine

/-! ### Frames behind a queue of their rank -/

theorem insertFrame_last {f : Frame} {q : List Frame} (h : ∀ g ∈ q, g.body.rank ≤ f.body.rank) : insertFrame f q = q ++ [f] := by
  induction q with
  | nil => rfl
  | cons g q ih =>
    have hg : (g.inTransmission || decide (g.body.rank ≤ f.body.rank)) = true := by
      rw [decide_eq_true (h g List.mem_cons_self), Bool.or_true]
    rw [insertFrame, if_pos hg, ih fun x hx => h x (List.mem_cons_of_mem g hx)]
    rfl

/-- A frame that is placed changes the queue, and at most the backoff count and the draws beside it. -/
theorem placeFrame_queued (f : Frame) (s : State) : ∃ b d,
    placeFrame f s = (s.setTx { s.tx with queue := insertFrame f s.tx.queue, backoff := b }).setDraws d := by
  unfold placeFrame
  dsimp only
  split
  · exact ⟨s.tx.backoff, s.draws, rfl⟩
  · obtain ⟨b, d, heq, -⟩ := drawBackoff_drawn (setQueue (insertFrame f s.tx.queue) s)
    exact ⟨b, d, heq⟩

/-- The RELEASE frame of a claim that CLEAR removes (R23). -/
def clearedRelease (s : State) (e : Entry) : Frame := ownFrame s (.release e.number 0)

theorem foldl_offer_release (l : List Entry) : ∀ {s : State} {done : List Entry}, s.tx.queue = done.map (clearedRelease s) →
    done.length + l.length ≤ 8 → ∃ b d, l.foldl (fun s e => offer (.release e.number 0) s) s =
      (s.setTx { s.tx with queue := (done ++ l).map (clearedRelease s), backoff := b }).setDraws d := by
  induction l with
  | nil =>
    intro s done hq _
    refine ⟨s.tx.backoff, s.draws, ?_⟩
    rw [List.append_nil, ← hq]
    rfl
  | cons e l ih =>
    intro s done hq hroom
    have hlength : s.tx.queue.length < 8 := by
      rw [hq, List.length_map]
      simp only [List.length_cons] at hroom
      omega
    have hlast : insertFrame (clearedRelease s e) s.tx.queue = (done ++ [e]).map (clearedRelease s) := by
      rw [insertFrame_last, hq, List.map_append]
      · rfl
      · intro g hg
        rw [hq] at hg
        obtain ⟨x, -, rfl⟩ := List.mem_map.1 hg
        exact Nat.le_refl _
    obtain ⟨b, d, hplaced⟩ := placeFrame_queued (clearedRelease s e) s
    have hoffer : offer (.release e.number 0) s = (s.setTx { s.tx with
        queue := (done ++ [e]).map (clearedRelease s), backoff := b }).setDraws d := by
      rw [← hlast, ← hplaced]
      exact offerFrame_room _ _ hlength
    obtain ⟨b', d', hrest⟩ := ih (s := (s.setTx { s.tx with
      queue := (done ++ [e]).map (clearedRelease s), backoff := b }).setDraws d) (done := done ++ [e]) rfl
      (by simp only [List.length_append, List.length_cons, List.length_nil] at hroom ⊢; omega)
    refine ⟨b', d', ?_⟩
    rw [List.foldl_cons, hoffer, hrest, List.append_assoc]
    rfl

/-- Activity with no PRESENCE waiting places one behind the frames that wait (R111, R134). -/
theorem activity_places {s : State} (hnone : ∀ f ∈ s.tx.queue, f.isPresence = false) (hroom : s.tx.queue.length < 8) : ∃ b d,
    activity s = ((s.setPresence presenceActive).setTx { s.tx with
      queue := s.tx.queue ++ [ownFrame s (.presence .active s.settings.fingerprint)], backoff := b }).setDraws d := by
  have hlast : insertFrame (ownFrame s (.presence .active s.settings.fingerprint)) s.tx.queue =
      s.tx.queue ++ [ownFrame s (.presence .active s.settings.fingerprint)] := insertFrame_last fun g _ => rank_le_three g.body
  obtain ⟨b, d, hplaced⟩ := placeFrame_queued (ownFrame s (.presence .active s.settings.fingerprint)) (s.setPresence presenceActive)
  refine ⟨b, d, ?_⟩
  rw [← hlast]
  refine Eq.trans ?_ hplaced
  exact (offer_presence_new (s := s.setPresence presenceActive) hnone).trans (offerFrame_room _ _ hroom)

/-- The first three steps of CLEAR and those of steps 4 to 8 that are no activity, from a state whose queue holds its RELEASEs. -/
def emptied (s : State) : State := clearCounters (clearPeerCounts (clearReference (clearCues (clearTable s))))

theorem clearAll_eq (s : State) : clearAll s = answer .accepted (postEvent .cleared (countByte s.claims.entries.length)
    (countByte (liveLocals s).length) 0 (activity (emptied (clearReleases (clearQueue s))))) := rfl

theorem vector_map_getElem {α β : Type} {n : Nat} (v : Vector α n) (f : α → β) (h : (v.toList.map f).toArray.size = n) (i : Fin n) :
    (⟨(v.toList.map f).toArray, h⟩ : Vector β n)[i] = f v[i] := by
  simp

theorem mapChannels_channel (f : Channel → Channel) (s : State) (c : Fin 4) :
    (mapChannels f s).cues.channels[c] = f s.cues.channels[c] := vector_map_getElem s.cues.channels f _ c

theorem clearPeerCounts_peer (s : State) (p : Fin 31) :
    (clearPeerCounts s).peers[p] = { s.peers[p] with framesHeard := 0, absences := 0 } :=
  vector_map_getElem s.peers (fun p => { p with framesHeard := 0, absences := 0 }) _ p

/-- Step 5 of CLEAR writes the Reference Monitor alone (R168). -/
theorem clearReference_eq (s : State) : clearReference s = s.setReference
    (if s.reference.state = .lostHeld ∧ s.reference.present = true then
      { s.reference with state := .returning, stableTimer := 0, returnDue := false, releaseMark := true } else s.reference) := by
  unfold clearReference
  split <;> rfl

/-- The origin that ON_AIR_CHANGED names at CLEAR (R58). -/
def slotOrigin (s : State) : Byte :=
  match s.selector.onAir with
  | none => 0
  | some k => k.1

theorem clearTable_eq (s : State) : clearTable s = (((s.setClaims { s.claims with entries := [] }).setSelector
    { onAir := none, guard := none, sequence := s.selector.sequence + 1, feedSelect := 0, feedEnable := false }).setCells
      { s.cells with burst := 3 }).setPort (portWith ⟨.onAirChanged, s.clock.stationTime, 0, 0, slotOrigin s⟩ s.port) := by
  rw [clearTable]
  dsimp only
  rw [postEvent_eq]
  rfl

theorem emptied_channel (s : State) (c : Fin 4) : (emptied s).cues.channels[c] = { s.cues.channels[c] with
    state := .idle, runLength := 0, highCount := 0, offCount := 0, runStart := none, number := none,
    history := s.cues.channels[c].history.map fun r =>
      if r.outcome = .opened then { r with stop := some s.clock.stationTime, outcome := .cleared } else r } := by
  have hcues : (emptied s).cues.channels = (mapChannels (Channel.cleared s.clock.stationTime) s).cues.channels := by
    unfold emptied clearCues
    rw [clearReference_eq, clearTable_eq]
    rfl
  rw [hcues, mapChannels_channel, Channel.cleared, closeRecord_eq]
  rfl

theorem emptied_blocks (s : State) : (emptied s).tx = s.tx ∧ (emptied s).claims = { s.claims with entries := [], stale := 0, outside := 0 }
    ∧ (emptied s).selector =
        { onAir := none, guard := none, sequence := s.selector.sequence + 1, feedSelect := 0, feedEnable := false }
    ∧ (emptied s).cells = { s.cells with burst := 3 }
    ∧ (emptied s).port = portWith ⟨.onAirChanged, s.clock.stationTime, 0, 0, slotOrigin s⟩ s.port
    ∧ (emptied s).cues.manual = .idle ∧ (emptied s).cues.manualNumber = none
    ∧ (emptied s).rx = { s.rx with counters := ⟨0, 0, 0, 0, 0, 0, 0, 0, 0, 0, 0⟩ }
    ∧ (emptied s).peers = (clearPeerCounts s).peers
    ∧ (emptied s).reference = (if s.reference.state = .lostHeld ∧ s.reference.present = true then
        { s.reference with state := .returning, stableTimer := 0, returnDue := false, releaseMark := true } else s.reference)
    ∧ (emptied s).pending = s.pending ∧ (emptied s).loader = s.loader ∧ (emptied s).clock = s.clock
    ∧ (emptied s).settings = s.settings ∧ (emptied s).names = s.names := by
  unfold emptied clearCues
  rw [clearReference_eq, clearTable_eq]
  simp [mapChannels, clearCounters, clearPeerCounts, countersAtStart]
  rfl

/-- Steps 1 and 2 of CLEAR write the transmitter alone: the queue holds the RELEASEs of the live local claims (R23, R121). -/
theorem clearReleases_blocks {s : State} (h : (liveLocals s).length ≤ 8) : ∃ b d, clearReleases (clearQueue s) =
    (s.setTx { queue := (liveLocals s).map (clearedRelease s), backoff := b, renewal := false,
               sending := s.tx.sending.map fun a => { a with stopping := true }, driverEnable := s.tx.driverEnable }).setDraws d := by
  obtain ⟨b, d, hreleases⟩ := foldl_offer_release (liveLocals s) (s := clearQueue s) (done := []) rfl
    (by simp only [List.length_nil]; omega)
  exact ⟨b, d, hreleases⟩

/-- What the last steps of CLEAR leave of the state they meet (R187). -/
theorem finished_blocks {e t : State} {tx : Transmitter} {d : Nat} {port : SitePort}
    (h : t = answer .accepted ((((e.setPresence presenceActive).setTx tx).setDraws d).setPort port)) :
    t.tx = tx ∧ t.port.events = port.events ∧ t.port.output = [0xA0] ∧ t.claims = e.claims ∧ t.selector = e.selector
    ∧ t.cells = e.cells ∧ t.cues = e.cues ∧ t.peers = e.peers ∧ t.rx = e.rx ∧ t.presence = presenceActive ∧ t.reference = e.reference
    ∧ t.pending = e.pending ∧ t.loader = e.loader ∧ t.clock = e.clock ∧ t.settings = e.settings ∧ t.names = e.names := by
  subst h
  simp [answer, portReturns, Reply.code]

/-- Settles O60: the nine steps of CLEAR one after the other. -/
theorem clearEmptiesTheTables : Obligations.ClearEmptiesTheTables := by
  intro s hopen hevents locals hlocals frame old
  have hlength : (liveLocals s).length ≤ 5 := hlocals
  obtain ⟨b, d, hreleases⟩ := clearReleases_blocks (s := s) (by omega)
  obtain ⟨htx, hclaims, hselector, hcells, hport, hmanual, hnumber, hrx, hpeers, hreference, hpending, hloader, hclock, hsettings,
    hnames⟩ := emptied_blocks (clearReleases (clearQueue s))
  have hchannel := emptied_channel (clearReleases (clearQueue s))
  have hpeer := clearPeerCounts_peer (clearReleases (clearQueue s))
  have hexec : exec .clear s = .next (clearAll s) := atRunningPort_eq hopen
  rw [clearAll_eq] at hexec
  generalize emptied (clearReleases (clearQueue s)) = e at *
  rw [hreleases] at htx hclaims hselector hcells hport hrx hpeers hpeer hchannel
  rw [hreleases] at hreference hpending hloader hclock hsettings hnames
  have hqueue : e.tx.queue = (liveLocals s).map (clearedRelease s) := congrArg Transmitter.queue htx
  obtain ⟨b', d', hactive⟩ := activity_places (s := e)
    (by
      rw [hqueue]
      intro f hf
      obtain ⟨x, -, rfl⟩ := List.mem_map.1 hf
      rfl)
    (by rw [hqueue, List.length_map]; omega)
  rw [hactive, postEvent_eq] at hexec
  have hroom : (portWith ⟨.onAirChanged, s.clock.stationTime, 0, 0, slotOrigin s⟩ s.port).events =
      s.port.events ++ [⟨.onAirChanged, s.clock.stationTime, 0, 0, old⟩] := congrArg SitePort.events (portWith_of_room (by omega))
  have hport : e.port = portWith ⟨.onAirChanged, s.clock.stationTime, 0, 0, slotOrigin s⟩ s.port := hport
  have hclock : e.clock = s.clock := hclock
  obtain ⟨ttx, tevents, toutput, tclaims, tselector, tcells, tcues, tpeers, trx, tpresence, treference, tpending, tloader, tclock,
    tsettings, tnames⟩ := finished_blocks (e := e) rfl
  refine ⟨_, hexec, ?_, (congrArg Transmitter.renewal ttx).trans (congrArg Transmitter.renewal htx),
    (congrArg Transmitter.sending ttx).trans (congrArg Transmitter.sending htx), tclaims.trans hclaims, tselector.trans hselector,
    tcells.trans hcells, tevents.trans ?_, toutput, (congrArg CueFrontEnd.manual tcues).trans hmanual,
    (congrArg CueFrontEnd.manualNumber tcues).trans hnumber, fun c => ?_, fun p => ?_, trx.trans hrx, tpresence,
    treference.trans hreference, tpending.trans hpending, tloader.trans hloader, tclock.trans hclock, tsettings.trans hsettings,
    tnames.trans hnames⟩
  · rw [ttx]
    show e.tx.queue ++ [ownFrame e (.presence .active e.settings.fingerprint)] = _
    rw [hqueue, ownFrame, hsettings, hclaims]
    rfl
  · rw [State.setDraws_port, State.setTx_port, State.setPresence_port, hport, portWith_of_room]
    · rw [State.setDraws_clock, State.setTx_clock, State.setPresence_clock, hroom, hclock, List.append_assoc]
      rfl
    · rw [hroom]
      simp only [List.length_append, List.length_cons, List.length_nil]
      omega
  · rw [tcues]
    exact hchannel c
  · rw [tpeers, hpeers, hpeer]
    rfl

end Sys2Proof.Machine
end
section
/-! The reports of claims, peers and cue histories (R84, R139, R175, R190). -/

namespace Sys2Proof.Machine

/-! ### The precedence order -/

/-- No two entries of the list have the same key. -/
def KeysDiffer (l : List Entry) : Prop := ∀ x ∈ l, ∀ y ∈ l, x.key = y.key → x = y

theorem KeysDiffer.subset {l m : List Entry} (h : KeysDiffer l) (hm : ∀ e ∈ m, e ∈ l) : KeysDiffer m :=
  fun x hx y hy => h x (hm x hx) y (hm y hy)

/-- The best of a set does not depend on the order in which it is listed. -/
theorem best_congr {l m : List Entry} (hmem : ∀ e, e ∈ l ↔ e ∈ m) (hkeys : KeysDiffer l) : best l = best m := by
  have hforemost : ∀ e, e ∈ foremost l ↔ e ∈ foremost m := by
    intro e
    rw [mem_foremost, mem_foremost]
    constructor
    · exact fun h => ⟨(hmem e).1 h.mem, fun o ho => h.score o ((hmem o).2 ho), fun o ho => h.cls o ((hmem o).2 ho),
        fun o ho => h.origin o ((hmem o).2 ho)⟩
    · exact fun h => ⟨(hmem e).2 h.mem, fun o ho => h.score o ((hmem o).1 ho), fun o ho => h.cls o ((hmem o).1 ho),
        fun o ho => h.origin o ((hmem o).1 ho)⟩
  by_cases hl : l = []
  · have hm : m = [] := List.eq_nil_iff_forall_not_mem.2 fun e he => by rw [← hmem, hl] at he; exact List.not_mem_nil he
    rw [hl, hm]
  · obtain ⟨x, hx⟩ := exists_best hl
    obtain ⟨y, hy⟩ := exists_best (List.ne_nil_of_mem ((hmem x).1 (best_mem hx)))
    obtain ⟨hxmem, hxpick⟩ := best_spec hx
    obtain ⟨hymem, hypick⟩ := best_spec hy
    have hnumber : x.number = y.number := by
      have hyl : y ∈ foremost l := (hforemost y).2 hymem
      have hxm : x ∈ foremost m := (hforemost x).1 hxmem
      have hold : ∀ e, OldestOf (foremost l) e ↔ OldestOf (foremost m) e := fun e =>
        ⟨fun h o ho => h o ((hforemost o).2 ho), fun h o ho => h o ((hforemost o).1 ho)⟩
      rcases hxpick with hxold | ⟨hxnone, hxlow⟩
      · rcases hypick with hyold | ⟨hynone, -⟩
        · rcases hxold y hyl with heq | hxy
          · exact heq.symm
          · rcases hyold x hxm with heq | hyx
            · exact heq
            · rw [(olderNumber_asymm hxy).1] at hyx
              cases hyx
        · exact absurd ((hold x).1 hxold) (hynone x hxm)
      · rcases hypick with hyold | ⟨-, hylow⟩
        · exact absurd ((hold y).2 hyold) (hxnone y hyl)
        · exact BitVec.eq_of_toNat_eq (Nat.le_antisymm (hxlow y hyl) (hylow x hxm))
    have horigin := ((mem_foremost.1 hxmem).same (mem_foremost.1 ((hforemost y).2 hymem))).2.2
    rw [hx, hy, hkeys x (best_mem hx) y ((hmem y).2 (best_mem hy)) (Prod.ext horigin hnumber)]

/-- The best and the entries of another key are the set. -/
theorem perm_best_filter {l : List Entry} {e : Entry} (hkeys : KeysDiffer l) (hnodup : l.Nodup) (he : e ∈ l) :
    (e :: l.filter fun o => o.key != e.key).Perm l := by
  rw [List.perm_ext_iff_of_nodup ?_ hnodup]
  · intro x
    rw [List.mem_cons, List.mem_filter, bne_iff_ne]
    constructor
    · rintro (rfl | ⟨hx, -⟩)
      · exact he
      · exact hx
    · intro hx
      by_cases hkey : x.key = e.key
      · exact .inl (hkeys x hx e he hkey)
      · exact .inr ⟨hx, hkey⟩
  · rw [List.nodup_cons]
    refine ⟨fun h => ?_, hnodup.filter _⟩
    rw [List.mem_filter, bne_iff_ne] at h
    exact h.2 rfl

/-- R40: the precedence order lists the set, each entry the best of those from it on. -/
theorem precedenceOrder_spec (n : Nat) : ∀ {l : List Entry}, l.length ≤ n → KeysDiffer l → l.Nodup →
    (precedenceOrder n l).Perm l
    ∧ ∀ (before after : List Entry) (e : Entry), precedenceOrder n l = before ++ e :: after → best (e :: after) = some e := by
  induction n with
  | zero =>
    intro l hlength _ _
    rw [List.eq_nil_of_length_eq_zero (Nat.le_zero.1 hlength)]
    exact ⟨.nil, fun before after e h => by simp [precedenceOrder] at h⟩
  | succ n ih =>
    intro l hlength hkeys hnodup
    by_cases hl : l = []
    · rw [hl]
      exact ⟨.nil, fun before after e h => by simp [precedenceOrder, best_eq_none.2] at h⟩
    · obtain ⟨x, hx⟩ := exists_best hl
      have horder : precedenceOrder (n + 1) l = x :: precedenceOrder n (l.filter fun o => o.key != x.key) := by
        rw [precedenceOrder, hx]
      have hperm := perm_best_filter hkeys hnodup (best_mem hx)
      obtain ⟨hrest, hbest⟩ := ih (l := l.filter fun o => o.key != x.key)
        (by have := hperm.length_eq; rw [List.length_cons] at this; omega)
        (hkeys.subset fun e he => List.mem_of_mem_filter he) (hnodup.filter _)
      have hall : (precedenceOrder (n + 1) l).Perm l := by
        rw [horder]
        exact (hrest.cons x).trans hperm
      refine ⟨hall, fun before after e h => ?_⟩
      cases before with
      | nil =>
        rw [horder] at h
        obtain ⟨rfl, -⟩ := List.cons.inj h
        rw [horder, h, List.nil_append] at hall
        rw [← best_congr (fun o => hall.mem_iff.symm) hkeys]
        exact hx
      | cons b before =>
        rw [horder] at h
        exact hbest before after e (List.cons.inj h).2

/-! ### The order by ending since -/

theorem insertByEnding_perm (now : Time) (e : Entry) (l : List Entry) : (insertByEnding now e l).Perm (e :: l) := by
  induction l with
  | nil => exact .refl _
  | cons o l ih =>
    rw [insertByEnding]
    split
    · exact .refl _
    · exact (ih.cons o).trans (.swap e o l)

/-- The first of two ENDING entries ended earlier, or at the same time and stands earlier in the list `l`. -/
def EndedBefore (now : Time) (l : List Entry) (x y : Entry) : Prop :=
  y.endedFor now < x.endedFor now ∨ (y.endedFor now = x.endedFor now ∧ [x, y].Sublist l)

theorem EndedBefore.mono {now : Time} {l m : List Entry} {x y : Entry} (h : EndedBefore now l x y) (hm : l.Sublist m) :
    EndedBefore now m x y := h.imp_right fun ⟨heq, hsub⟩ => ⟨heq, hsub.trans hm⟩

theorem EndedBefore.le {now : Time} {l : List Entry} {x y : Entry} (h : EndedBefore now l x y) : y.endedFor now ≤ x.endedFor now :=
  h.elim Nat.le_of_lt fun h => Nat.le_of_eq h.1

/-- An entry from behind a list goes behind those of the list that ended no later. -/
theorem insertByEnding_sorted {now : Time} {l : List Entry} (e : Entry) : ∀ {sorted : List Entry}, (∀ o ∈ sorted, o ∈ l) →
    sorted.Pairwise (EndedBefore now l) → (insertByEnding now e sorted).Pairwise (EndedBefore now (l ++ [e])) := by
  intro sorted
  induction sorted with
  | nil => exact fun _ _ => List.pairwise_singleton _ _
  | cons o rest ih =>
    intro hmem hsorted
    obtain ⟨ho, hrest⟩ := List.pairwise_cons.1 hsorted
    rw [insertByEnding]
    split
    · next hlater =>
      refine List.pairwise_cons.2 ⟨fun y hy => .inl ?_, hsorted.imp fun h => h.mono (List.sublist_append_left l [e])⟩
      rcases List.mem_cons.1 hy with rfl | hy
      · exact hlater
      · exact Nat.lt_of_le_of_lt (ho y hy).le hlater
    · next hnot =>
      refine List.pairwise_cons.2 ⟨fun y hy => ?_, ih (fun x hx => hmem x (List.mem_cons_of_mem o hx)) hrest⟩
      rcases List.mem_cons.1 ((insertByEnding_perm now e rest).mem_iff.1 hy) with rfl | hy
      · rcases Nat.lt_or_eq_of_le (Nat.not_lt.1 hnot) with hlt | heq
        · exact .inl hlt
        · exact .inr ⟨heq, (List.singleton_sublist.2 (hmem o List.mem_cons_self)).append (.refl [y])⟩
      · exact (ho y hy).mono (List.sublist_append_left l [e])

theorem foldl_insertByEnding (now : Time) (l : List Entry) : ∀ {done sorted : List Entry}, sorted.Perm done →
    sorted.Pairwise (EndedBefore now done) →
    (l.foldl (fun acc e => insertByEnding now e acc) sorted).Perm (done ++ l)
    ∧ (l.foldl (fun acc e => insertByEnding now e acc) sorted).Pairwise (EndedBefore now (done ++ l)) := by
  induction l with
  | nil =>
    intro done sorted hperm hsorted
    rw [List.append_nil]
    exact ⟨hperm, hsorted⟩
  | cons e l ih =>
    intro done sorted hperm hsorted
    have hrest := ih (done := done ++ [e]) (sorted := insertByEnding now e sorted)
      ((insertByEnding_perm now e sorted).trans ((hperm.cons e).trans (List.perm_append_singleton e done).symm))
      (insertByEnding_sorted e (fun o ho => hperm.mem_iff.1 ho) hsorted)
    rw [List.append_assoc] at hrest
    exact hrest

/-! ### The bytes of a record -/

theorem length_entryBytes (e : Entry) : e.bytes.length = 19 := by
  unfold Entry.bytes
  cases e.endingSince <;> rfl

theorem length_peerBytes (p : Peer) : p.bytes.length = 10 := rfl

theorem length_historyBytes (r : HistoryRecord) : r.bytes.length = 10 := rfl

theorem length_flatMap_const {α : Type} {f : α → List Byte} {n : Nat} (h : ∀ a, (f a).length = n) (l : List α) :
    (l.flatMap f).length = n * l.length := by
  induction l with
  | nil => rfl
  | cons a l ih => rw [List.flatMap_cons, List.length_append, h, ih, List.length_cons, Nat.mul_succ, Nat.add_comm]

theorem length_channelBytes (ch : Channel) : ch.bytes.length = 3 + 10 * ch.history.length := by
  rw [Channel.bytes, List.length_cons, List.length_cons, List.length_cons, length_flatMap_const length_historyBytes]
  omega

theorem length_historyReport (s : State) :
    (historyReport s).length = ((List.finRange 4).map fun c => 3 + 10 * s.cues.channels[c].history.length).sum := by
  rw [historyReport, List.length_flatMap, toList_four]
  simp only [length_channelBytes, List.map_cons, List.map_nil]
  rfl

theorem entryFlags (a b c : Bool) : flagByte a + 2 * flagByte b + 4 * flagByte c =
    BitVec.ofNat 8 ((if a then 1 else 0) + (if b then 2 else 0) + (if c then 4 else 0)) := by
  cases a <;> cases b <;> cases c <;> rfl

theorem peerFlags (a b : Option Byte) (c : Option Half) (d : Option Bool) :
    flagByte a.isSome + 2 * flagByte b.isSome + 4 * flagByte c.isSome + 8 * flagByte (c.isSome && d == some true) =
    BitVec.ofNat 8 ((if a = none then 0 else 1) + (if b = none then 0 else 2) + (if c = none then 0 else 4)
      + (if c ≠ none ∧ d = some true then 8 else 0)) := by
  rcases a with _ | a <;> rcases b with _ | b <;> rcases c with _ | c <;> rcases d with _ | _ | _ <;> rfl

/-- The bytes of a claim record (R190). -/
theorem entryBytes_eq (e : Entry) : e.bytes =
    [e.origin, e.number,
     BitVec.ofNat 8 ((if e.isLocal then 1 else 0) + (if e.candidate then 2 else 0) + (if e.mismatchReported then 4 else 0)),
     e.source.elim 0xFF (fun c => BitVec.ofNat 8 c.val), BitVec.ofNat 8 e.cls.rank, e.areas, e.label, e.state.code]
    ++ halfBytes (BitVec.ofNat 16 e.age)
    ++ [BitVec.ofNat 8 e.score, BitVec.ofNat 8 e.demotions, BitVec.ofNat 8 e.stagesFired, BitVec.ofNat 8 e.refreshCount,
        e.endCause.elim 0xFF EndCause.code]
    ++ e.endingSince.elim [0, 0, 0, 0] timeBytes := by
  rw [Entry.bytes, entryFlags]
  cases e.source <;> cases e.endCause <;> cases e.endingSince <;> rfl

/-! ### The three reports -/

theorem reportOrder_spec {s : State} (hd : distinctClaims s) : ∃ waiting ending : List Entry,
    reportOrder s = s.claims.entries.filter (fun e => e.state == .onAir) ++ waiting ++ ending
    ∧ waiting.Perm (s.claims.entries.filter fun e => e.state == .waiting)
    ∧ (∀ (before after : List Entry) (e : Entry), waiting = before ++ e :: after → best (e :: after) = some e)
    ∧ ending.Perm (s.claims.entries.filter fun e => e.state == .ending)
    ∧ ending.Pairwise (EndedBefore s.clock.stationTime s.claims.entries) := by
  have hkeys : KeysDiffer s.claims.entries := fun x hx y hy => eq_of_key_eq hd hx hy
  obtain ⟨hwaiting, hbest⟩ := precedenceOrder_spec s.claims.entries.length
    (List.length_filter_le (fun e : Entry => e.state == .waiting) s.claims.entries)
    (hkeys.subset fun e he => List.mem_of_mem_filter he) ((nodup_entries hd).filter _)
  obtain ⟨hending, hsorted⟩ := foldl_insertByEnding s.clock.stationTime
    (s.claims.entries.filter fun e => e.state == .ending) (done := []) .nil .nil
  exact ⟨_, _, rfl, hwaiting, hbest, hending, hsorted.imp fun h => h.mono List.filter_sublist⟩

/-- R175: the report lists as many entries as the table holds. -/
theorem length_listed {l waiting ending : List Entry} (hwaiting : waiting.Perm (l.filter fun e => e.state == .waiting))
    (hending : ending.Perm (l.filter fun e => e.state == .ending)) :
    (l.filter (fun e => e.state == .onAir) ++ waiting ++ ending).length = l.length := by
  rw [List.length_append, List.length_append, hwaiting.length_eq, hending.length_eq]
  clear hwaiting hending
  induction l with
  | nil => rfl
  | cons e l ih => cases h : e.state <;> simp [h] at ih ⊢ <;> omega

theorem exec_claims {s : State} (hopen : s.openRunning) :
    exec .claims s = .next (s.setPort { s.port with output := 0xA0 :: claimsReport s }) := atRunningPort_eq hopen

theorem claimsReported {s : State} (hopen : s.openRunning) (hd : distinctClaims s) : ∃ waiting ending : List Entry,
    let listed := s.claims.entries.filter (fun e => e.state == .onAir) ++ waiting ++ ending
    exec .claims s = .next (s.setPort { s.port with
      output := 0xA0 :: BitVec.ofNat 8 s.claims.entries.length :: listed.flatMap Entry.bytes })
    ∧ listed = reportOrder s ∧ (listed.flatMap Entry.bytes).length = 19 * s.claims.entries.length
    ∧ waiting.Perm (s.claims.entries.filter fun e => e.state == .waiting)
    ∧ (∀ (before after : List Entry) (e : Entry), waiting = before ++ e :: after → best (e :: after) = some e)
    ∧ ending.Perm (s.claims.entries.filter fun e => e.state == .ending)
    ∧ ending.Pairwise (EndedBefore s.clock.stationTime s.claims.entries) := by
  obtain ⟨waiting, ending, horder, hwaiting, hbest, hending, hsorted⟩ := reportOrder_spec hd
  refine ⟨waiting, ending, ?_, horder.symm, ?_, hwaiting, hbest, hending, hsorted⟩
  · rw [← horder]
    exact exec_claims hopen
  · rw [length_flatMap_const length_entryBytes, length_listed hwaiting hending]

theorem exec_peers {s : State} (hopen : s.openRunning) :
    exec .peers s = .next (portReturns (0xA0 :: peersReport s) (clearPeerCounts s)) :=
  atRunningPort_eq (f := fun s => portReturns (Reply.accepted.code :: peersReport s) (clearPeerCounts s)) hopen

theorem exec_cueHistory {s : State} (hopen : s.openRunning) :
    exec .cueHistory s = .next (portReturns (0xA0 :: historyReport s) (mapChannels Channel.reported s)) :=
  atRunningPort_eq (f := fun s => portReturns (Reply.accepted.code :: historyReport s) (mapChannels Channel.reported s)) hopen

theorem peersReported {s : State} (hopen : s.openRunning) : ∃ t, exec .peers s = .next t
    ∧ t.port = { s.port with output := 0xA0 :: s.peers.toList.flatMap Peer.bytes }
    ∧ peersReport s = s.peers.toList.flatMap Peer.bytes ∧ (peersReport s).length = 310
    ∧ (∀ p : Fin 31, t.peers[p] = { s.peers[p] with framesHeard := 0, absences := 0 })
    ∧ t = (s.setPeers t.peers).setPort t.port := by
  refine ⟨_, exec_peers hopen, rfl, rfl, ?_, clearPeerCounts_peer s, rfl⟩
  rw [peersReport, length_flatMap_const length_peerBytes, Vector.length_toList]

theorem historyReported {s : State} (hopen : s.openRunning) : ∃ t, exec .cueHistory s = .next t
    ∧ t.port = { s.port with output := 0xA0 :: s.cues.channels.toList.flatMap Channel.bytes }
    ∧ historyReport s = s.cues.channels.toList.flatMap Channel.bytes
    ∧ (historyReport s).length = ((List.finRange 4).map fun c => 3 + 10 * s.cues.channels[c].history.length).sum
    ∧ (∀ c : Fin 4, t.cues.channels[c] =
        { s.cues.channels[c] with history := s.cues.channels[c].history.filter HistoryRecord.isOpen, full := false })
    ∧ t = (s.setCues { s.cues with channels := t.cues.channels }).setPort t.port :=
  ⟨_, exec_cueHistory hopen, rfl, rfl, length_historyReport s, mapChannels_channel Channel.reported s, rfl⟩

/-- Settles O58: the three reports one by one, then the bytes of their records. -/
theorem reportsReturnAndClear : Obligations.ReportsReturnAndClear := by
  refine ⟨fun s hopen _ hd => ⟨claimsReported hopen hd, exec_claims hopen, peersReported hopen, historyReported hopen⟩,
    fun e => ?_, fun p => ?_, fun ch => ?_⟩
  · rw [entryBytes_eq]
    cases e.state <;> rcases e.endCause with _ | _ | _ | _ | _ | _ <;> rfl
  · rw [Peer.bytes, peerFlags]
    cases p.state <;> cases p.level <;> rfl
  · have hrecord : ∀ r : HistoryRecord, r.bytes = timeBytes r.start ++ timeBytes (r.stop.getD 0) ++ [(match r.outcome with
        | .opened => 0 | .released => 1 | .localEnd => 2 | .lapsed => 3 | .refused => 4 | .cleared => 5), r.number.getD 0] := by
      intro r
      rw [HistoryRecord.bytes]
      cases r.outcome <;> rfl
    rw [Channel.bytes, show HistoryRecord.bytes = _ from funext hrecord]
    cases ch.state <;> cases ch.full <;> rfl

end Sys2Proof.Machine
end
section
/-! The supervision of one entry in one age step, stage by stage (R88 to R96). -/

namespace Sys2Proof.Machine

/-! ### The stages that are due -/

/-- The stages whose number is greater than the stages fired, with their numbers. -/
def stagesBehind (cfg : Settings) (fired : Nat) : List (Nat × Stage) := ([1, 2, 3, 4].zip cfg.stages.toList).drop fired

/-- The stages that fire at this age on an entry with these stages fired (R89, R90). -/
def stagesAt (cfg : Settings) (age fired : Nat) : List (Nat × Stage) := firingStages age (stagesBehind cfg fired)

theorem stagesDue_eq (s : State) (e : Entry) : stagesDue s e = stagesAt s.settings (min (e.age + 1) 65535) e.stagesFired := rfl

theorem stagesBehind_fin (cfg : Settings) (i : Fin 4) :
    stagesBehind cfg i.val = (i.val + 1, cfg.stages[i]) :: stagesBehind cfg (i.val + 1) := by
  unfold stagesBehind
  rw [toList_four]
  fin_cases i <;> rfl

theorem stagesBehind_end (cfg : Settings) {fired : Nat} (h : 4 ≤ fired) : stagesBehind cfg fired = [] := by
  refine List.drop_eq_nil_of_le ?_
  rw [toList_four]
  exact h

theorem stagesBehind_eq_filter (cfg : Settings) (fired : Nat) :
    ([1, 2, 3, 4].zip cfg.stages.toList).filter (fun p => fired < p.1) = stagesBehind cfg fired := by
  match fired with
  | 0 | 1 | 2 | 3 =>
    unfold stagesBehind
    rw [toList_four]
    rfl
  | n + 4 =>
    refine (List.filter_eq_nil_iff.2 fun p hp => ?_).trans (stagesBehind_end cfg (Nat.le_add_left 4 n)).symm
    have hle : p.1 ≤ 4 := by
      have hmem : p.1 ∈ [1, 2, 3, 4] := (List.of_mem_zip hp).1
      simp only [List.mem_cons, List.not_mem_nil, or_false] at hmem
      omega
    simp only [decide_eq_true_eq]
    omega

/-- The next stage is the first of those behind the stages fired that is on. -/
theorem nextStage_eq (cfg : Settings) (fired : Nat) : nextStage cfg fired = (stagesBehind cfg fired).find? fun p => p.2.hold != 0 := by
  rw [← stagesBehind_eq_filter, List.find?_filter]
  unfold nextStage
  congr 1
  funext p
  cases h : decide (fired < p.1) <;> cases h' : p.2.hold != 0 <;> rfl

/-- No stage fires, or the next stage fires first, and those behind it if it does not end the entry (R89, R90). -/
theorem stagesAt_next (cfg : Settings) (age : Nat) : ∀ left fired : Nat, 4 ≤ fired + left →
    (nextStage cfg fired = none ∧ stagesAt cfg age fired = [])
    ∨ ∃ p : Nat × Stage, nextStage cfg fired = some p ∧ fired < p.1 ∧ stagesAt cfg age fired =
        if age < p.2.hold then [] else p :: if (stageEnding p.2.action).isSome then [] else stagesAt cfg age p.1 := by
  intro left
  induction left with
  | zero =>
    intro fired hfired
    rw [nextStage_eq, stagesAt, stagesBehind_end cfg (Nat.add_zero fired ▸ hfired)]
    exact .inl ⟨rfl, rfl⟩
  | succ left ih =>
    intro fired hfired
    by_cases hend : 4 ≤ fired
    · rw [nextStage_eq, stagesAt, stagesBehind_end cfg hend]
      exact .inl ⟨rfl, rfl⟩
    · have hbehind := stagesBehind_fin cfg ⟨fired, Nat.not_le.1 hend⟩
      dsimp only at hbehind
      rw [nextStage_eq, stagesAt, hbehind, List.find?_cons, firingStages]
      generalize cfg.stages[(⟨fired, Nat.not_le.1 hend⟩ : Fin 4)] = st
      by_cases hoff : st.hold = 0
      · rw [hoff, if_pos rfl]
        rcases ih (fired + 1) (by omega) with h | ⟨p, hp, hlt, hdue⟩
        · rw [nextStage_eq] at h
          exact .inl h
        · rw [nextStage_eq] at hp
          exact .inr ⟨p, hp, by omega, hdue⟩
      · rw [if_neg hoff, bne_iff_ne.2 hoff]
        exact .inr ⟨(fired + 1, st), rfl, Nat.lt_succ_self fired, rfl⟩

/-- With every stage off none fires. -/
theorem stagesAt_off {cfg : Settings} (h : ∀ i : Fin 4, cfg.stages[i].hold = 0) (age fired : Nat) : stagesAt cfg age fired = [] := by
  have hoff : ∀ p ∈ stagesBehind cfg fired, p.2.hold = 0 := by
    intro p hp
    have hmem : p ∈ [(1, cfg.stages[0]), (2, cfg.stages[1]), (3, cfg.stages[2]), (4, cfg.stages[3])] := by
      have := List.mem_of_mem_drop hp
      rwa [toList_four] at this
    simp only [List.mem_cons, List.not_mem_nil, or_false] at hmem
    rcases hmem with rfl | rfl | rfl | rfl
    exacts [h 0, h 1, h 2, h 3]
  rcases stagesAt_next cfg age 4 fired (Nat.le_add_left 4 fired) with ⟨-, hdue⟩ | ⟨p, hp, -, -⟩
  · exact hdue
  · rw [nextStage_eq] at hp
    have hon := List.find?_some hp
    rw [hoff p (List.mem_of_find?_eq_some hp)] at hon
    cases hon

/-! ### What the stages leave in the entry and post -/

/-- The cause with which a list of stages ends the entry, if its last one does. -/
def endingOf (due : List (Nat × Stage)) : Option EndCause := due.getLast?.bind fun p => stageEnding p.2.action

/-- The number of the last of these stages, or the stages fired before them. -/
def lastNumber (due : List (Nat × Stage)) (fired : Nat) : Nat := (due.getLast?.map Prod.fst).getD fired

theorem endingDue_eq (s : State) (e : Entry) : endingDue s e = endingOf (stagesDue s e) := rfl

theorem endingOf_cons {p : Nat × Stage} {due : List (Nat × Stage)} (h : stageEnding p.2.action = none) :
    endingOf (p :: due) = endingOf due := by
  cases due with
  | nil => exact h
  | cons q due => rfl

theorem lastNumber_cons (p : Nat × Stage) (due : List (Nat × Stage)) (fired : Nat) :
    lastNumber (p :: due) fired = lastNumber due p.1 := by
  cases due with
  | nil => rfl
  | cons q due =>
    unfold lastNumber
    rw [List.getLast?_cons_cons, List.getLast?_cons]
    rfl

/-- The entry with the number of a stage that fires on it (R89). -/
def withStage (stage : Nat) (e : Entry) : Entry := { e with stagesFired := stage }

/-- The entry with one demotion more, to 3 at most, and the score that follows (R92). -/
def demoted (cfg : Settings) (e : Entry) : Entry :=
  { e with demotions := satInc 3 e.demotions, score := cfg.scoreOf { e with demotions := satInc 3 e.demotions } }

/-- The entry after a stage that fires on it, before an ending (R89, R92). -/
def afterStage (cfg : Settings) (p : Nat × Stage) (e : Entry) : Entry :=
  if p.2.action = .demote then demoted cfg (withStage p.1 e) else withStage p.1 e

/-- The entry after the stages that fire on it. -/
def afterStages (cfg : Settings) (due : List (Nat × Stage)) (e : Entry) : Entry := due.foldl (fun e p => afterStage cfg p e) e

/-- A stage leaves the fields of an entry but the stages fired, the demotions and the score. -/
theorem afterStage_keeps (cfg : Settings) (p : Nat × Stage) (e : Entry) :
    (afterStage cfg p e).key = e.key ∧ (afterStage cfg p e).origin = e.origin ∧ (afterStage cfg p e).number = e.number
    ∧ (afterStage cfg p e).isLocal = e.isLocal ∧ (afterStage cfg p e).state = e.state ∧ (afterStage cfg p e).age = e.age
    ∧ (afterStage cfg p e).candidate = e.candidate ∧ (afterStage cfg p e).source = e.source
    ∧ (afterStage cfg p e).cls = e.cls ∧ (afterStage cfg p e).stagesFired = p.1 := by
  unfold afterStage
  split <;> exact ⟨rfl, rfl, rfl, rfl, rfl, rfl, rfl, rfl, rfl, rfl⟩

theorem afterStages_keeps (cfg : Settings) (due : List (Nat × Stage)) : ∀ e : Entry,
    (afterStages cfg due e).key = e.key ∧ (afterStages cfg due e).origin = e.origin ∧ (afterStages cfg due e).number = e.number
    ∧ (afterStages cfg due e).isLocal = e.isLocal ∧ (afterStages cfg due e).state = e.state
    ∧ (afterStages cfg due e).candidate = e.candidate ∧ (afterStages cfg due e).source = e.source := by
  induction due with
  | nil => exact fun e => ⟨rfl, rfl, rfl, rfl, rfl, rfl, rfl⟩
  | cons p due ih =>
    intro e
    obtain ⟨hkey, horigin, hnumber, hlocal, hstate, -, hcandidate, hsource, -, -⟩ := afterStage_keeps cfg p e
    obtain ⟨ikey, iorigin, inumber, ilocal, istate, icandidate, isource⟩ := ih (afterStage cfg p e)
    exact ⟨ikey.trans hkey, iorigin.trans horigin, inumber.trans hnumber, ilocal.trans hlocal, istate.trans hstate,
      icandidate.trans hcandidate, isource.trans hsource⟩

/-- The stages that fire raise the stages fired to the last one's number and the demotions by one each DEMOTE, at most to 3, and the
score follows (R89, R91, R92). -/
theorem afterStages_eq (cfg : Settings) (due : List (Nat × Stage)) : ∀ {e : Entry}, e.demotions ≤ 3 → e.score = cfg.scoreOf e →
    afterStages cfg due e =
      { e with stagesFired := lastNumber due e.stagesFired,
               demotions := min (e.demotions + (due.filter fun p => p.2.action = .demote).length) 3,
               score := cfg.scoreOf
                 { e with demotions := min (e.demotions + (due.filter fun p => p.2.action = .demote).length) 3 } } := by
  induction due with
  | nil =>
    intro e hle hscore
    have hmin : min (e.demotions + 0) 3 = e.demotions := by omega
    simp only [List.filter_nil, List.length_nil, hmin]
    rw [← hscore]
    rfl
  | cons p due ih =>
    intro e hle hscore
    show afterStages cfg due (afterStage cfg p e) = _
    by_cases hp : p.2.action = .demote
    · have hstage : afterStage cfg p e = demoted cfg (withStage p.1 e) := if_pos hp
      rw [ih (e := afterStage cfg p e) (by rw [hstage]; exact satInc_le) (by rw [hstage]; rfl), hstage, lastNumber_cons,
        List.filter_cons_of_pos (p := fun p : Nat × Stage => p.2.action = .demote) (decide_eq_true hp), List.length_cons]
      have hmin : min (satInc 3 e.demotions + (due.filter fun p => p.2.action = .demote).length) 3 =
          min (e.demotions + ((due.filter fun p => p.2.action = .demote).length + 1)) 3 := by
        rw [satInc_eq_min]
        omega
      have hdemotions : (demoted cfg (withStage p.1 e)).demotions = satInc 3 e.demotions := rfl
      rw [hdemotions, hmin]
      rfl
    · have hstage : afterStage cfg p e = withStage p.1 e := if_neg hp
      rw [ih (e := afterStage cfg p e) (by rw [hstage]; exact hle) (by rw [hstage]; exact hscore), hstage, lastNumber_cons,
        List.filter_cons_of_neg (by simp [hp])]
      rfl

/-- The site port after a stage on the claim of this origin and number: OVERRUN, unless its action is NONE (R89). -/
def stagePort (now : Time) (origin number : Byte) (port : SitePort) (p : Nat × Stage) : SitePort :=
  if p.2.action = .nothing then port else portWith ⟨.overrun, now, origin, number, BitVec.ofNat 8 p.1⟩ port

theorem foldl_stagePort (now : Time) (origin number : Byte) (due : List (Nat × Stage)) : ∀ port : SitePort,
    due.foldl (stagePort now origin number) port = (due.filter fun p => p.2.action ≠ .nothing).foldl
      (fun port p => portWith ⟨.overrun, now, origin, number, BitVec.ofNat 8 p.1⟩ port) port := by
  induction due with
  | nil => exact fun port => rfl
  | cons p due ih =>
    intro port
    rw [List.foldl_cons, ih, stagePort]
    by_cases hp : p.2.action = .nothing
    · rw [if_pos hp, List.filter_cons_of_neg (by simp [hp])]
    · rw [if_neg hp, List.filter_cons_of_pos (by simp [hp]), List.foldl_cons]

/-! ### The state after the stages -/

/-- What these stages leave of the state, before an ending: the entry at its place and the events. -/
def stagesDone (due : List (Nat × Stage)) (e : Entry) (s : State) : State :=
  (updateEntry e.key (afterStages s.settings due) s).setPort (due.foldl (stagePort s.clock.stationTime e.origin e.number) s.port)

/-- An ending of a claim by the stage with this number (R93, R95, R96). -/
def endedByStage (cause : EndCause) (stage : Nat) (e : Entry) (s : State) : State :=
  endEntry e.key cause
    (if e.isLocal = false ∧ cause = .lapsed then
      postEvent .lapseSent e.origin e.number (countByte stage) (offer (.lapse e.origin e.number) s)
    else s)

theorem endedByStage_congr {x e : Entry} (hkey : x.key = e.key) (horigin : x.origin = e.origin) (hnumber : x.number = e.number)
    (hlocal : x.isLocal = e.isLocal) (cause : EndCause) (stage : Nat) (s : State) :
    endedByStage cause stage x s = endedByStage cause stage e s := by
  unfold endedByStage
  rw [hkey, horigin, hnumber, hlocal]

theorem endedByStage_of_kept {cause : EndCause} {stage : Nat} {e : Entry} {s : State}
    (h : ¬ (e.isLocal = false ∧ cause = .lapsed)) : endedByStage cause stage e s = endEntry e.key cause s :=
  congrArg (endEntry e.key cause) (if_neg h)

theorem endedByStage_of_lapse {e : Entry} (h : e.isLocal = false) (stage : Nat) (s : State) : endedByStage .lapsed stage e s =
    endEntry e.key .lapsed (postEvent .lapseSent e.origin e.number (countByte stage) (offer (.lapse e.origin e.number) s)) :=
  congrArg (endEntry e.key .lapsed) (if_pos ⟨h, rfl⟩)

theorem updateEntry_id (k : Byte × Byte) (s : State) : updateEntry k id s = s := by
  rw [updateEntry_eq]
  simp only [id_eq, ite_self, List.map_id']
  rfl

theorem updateEntry_updateEntry (k : Byte × Byte) {f : Entry → Entry} (hf : ∀ e, (f e).key = e.key) (g : Entry → Entry) (s : State) :
    updateEntry k g (updateEntry k f s) = updateEntry k (g ∘ f) s := by
  rw [updateEntry_eq k f, updateEntry_eq, updateEntry_eq]
  rw [State.setClaims_claims]
  show (s.setClaims _) = _
  dsimp only
  rw [List.map_map]
  congr 2
  refine List.map_congr_left fun e _ => ?_
  by_cases hk : e.key = k
  · simp only [Function.comp_apply, if_pos hk, hf e]
  · simp only [Function.comp_apply, if_neg hk]

theorem stagesDone_nil (e : Entry) (s : State) : stagesDone [] e s = s := by
  show (updateEntry e.key id s).setPort s.port = s
  rw [updateEntry_id]
  rfl

theorem stagesDone_cons (p : Nat × Stage) (due : List (Nat × Stage)) (e : Entry) (s : State) :
    stagesDone due (afterStage s.settings p e) (stagesDone [p] e s) = stagesDone (p :: due) e s := by
  obtain ⟨hkey, horigin, hnumber, -⟩ := afterStage_keeps s.settings p e
  have hone : (stagesDone [p] e s).settings = s.settings ∧ (stagesDone [p] e s).clock = s.clock := by
    unfold stagesDone
    simp
  unfold stagesDone at hone
  unfold stagesDone
  rw [hkey, horigin, hnumber, hone.1, hone.2]
  show (updateEntry e.key (afterStages s.settings due) (updateEntry e.key (afterStages s.settings [p]) s)).setPort _ = _
  rw [updateEntry_updateEntry _ (f := afterStages s.settings [p]) (fun x => (afterStages_keeps s.settings [p] x).1)]
  rfl

/-- What a stage leaves before its action: the stages fired and the OVERRUN event (R89). -/
theorem stageNoted_eq (p : Nat × Stage) (e : Entry) (s : State) :
    (if p.2.action = .nothing then updateEntry e.key (withStage p.1) s
      else postEvent .overrun e.origin e.number (countByte p.1) (updateEntry e.key (withStage p.1) s)) =
    (updateEntry e.key (withStage p.1) s).setPort
      (stagePort s.clock.stationTime e.origin e.number s.port p) := by
  unfold stagePort
  by_cases hp : p.2.action = .nothing
  · rw [if_pos hp, if_pos hp]
    rfl
  · rw [if_neg hp, if_neg hp, postEvent_eq]
    rfl

/-- A stage fires: it leaves what its action leaves, and ends the entry where its action does (R89 to R96). -/
theorem fireStage_eq (p : Nat × Stage) (e : Entry) (s : State) : fireStage p.1 p.2 e s =
    (stageEnding p.2.action).elim (stagesDone [p] e s) fun cause => endedByStage cause p.1 e (stagesDone [p] e s) := by
  have hdone : stagesDone [p] e s = (updateEntry e.key (afterStage s.settings p) s).setPort
      (stagePort s.clock.stationTime e.origin e.number s.port p) := rfl
  have hnoted : fireStage p.1 p.2 e s = stageAction s.settings p.2.action p.1 e
      ((updateEntry e.key (withStage p.1) s).setPort (stagePort s.clock.stationTime e.origin e.number s.port p)) := by
    rw [← stageNoted_eq]
    unfold fireStage
    split
    · rfl
    · have hsettings : (postEvent .overrun e.origin e.number (countByte p.1) (updateEntry e.key (withStage p.1) s)).settings =
          s.settings := by simp
      exact congrArg (fun cfg => stageAction cfg p.2.action p.1 e _) hsettings
  rw [hnoted, hdone]
  unfold stageAction
  by_cases hdemote : p.2.action = .demote
  · have hstage : afterStage s.settings p = demoted s.settings ∘ withStage p.1 := funext fun x => if_pos hdemote
    rw [hdemote, hstage, ← updateEntry_updateEntry e.key (f := withStage p.1) (fun _ => rfl)]
    rfl
  · have hstage : afterStage s.settings p = withStage p.1 := funext fun x => if_neg hdemote
    rw [hstage]
    cases haction : p.2.action with
    | nothing => rfl
    | notify => rfl
    | demote => exact absurd haction hdemote
    | localEnd => exact (endedByStage_of_kept fun h => by cases h.2).symm
    | lapse =>
      show ite _ _ _ = endedByStage .lapsed p.1 e _
      split
      · next hlocal => exact (endedByStage_of_kept fun h => by rw [hlocal] at h; cases h.1).symm
      · next hremote => exact (endedByStage_of_lapse (Bool.eq_false_iff.2 hremote) p.1 _).symm

/-! ### The supervision pass over one entry -/

/-- An entry on which no stage fires: it is ended, or none is due at its age. -/
def IdleAt (s : State) (k : Byte × Byte) : Prop :=
  ∀ e, s.entry k = some e → e.state = .ending ∨ stagesAt s.settings e.age e.stagesFired = []

theorem supervise_idle {s : State} {k : Byte × Byte} (h : IdleAt s k) (fuel : Nat) : supervise fuel k s = s := by
  cases fuel with
  | zero => rfl
  | succ n =>
    rw [supervise]
    cases he : s.entry k with
    | none => rfl
    | some e =>
      dsimp only
      rcases h e he with hending | hdue
      · rw [not_live_iff.2 hending]
        rfl
      · split
        · rfl
        · rcases stagesAt_next s.settings e.age 4 e.stagesFired (Nat.le_add_left 4 _) with ⟨hnone, -⟩ | ⟨p, hp, -, hstages⟩
          · rw [hnone]
          · rw [hp]
            rw [hdue] at hstages
            split at hstages
            · next hage => exact if_pos hage
            · cases hstages

theorem stagesDone_entry (due : List (Nat × Stage)) (e : Entry) (s : State) (j : Byte × Byte) :
    (stagesDone due e s).entry j = if j = e.key then (s.entry e.key).map (afterStages s.settings due) else s.entry j :=
  updateEntry_spec e.key j (afterStages s.settings due) (fun x => (afterStages_keeps s.settings due x).1) s

theorem stagesDone_keys (due : List (Nat × Stage)) (e : Entry) (s : State) : (stagesDone due e s).keys = s.keys :=
  keys_updateEntry e.key (fun x => (afterStages_keeps s.settings due x).1) s

/-- The stages leave every block but the Claim Table and the site port. -/
theorem stagesDone_keeps (due : List (Nat × Stage)) (e : Entry) (s : State) : sameGround s (stagesDone due e s)
    ∧ (stagesDone due e s).selector = s.selector ∧ (stagesDone due e s).cues = s.cues ∧ (stagesDone due e s).tx = s.tx
    ∧ (stagesDone due e s).peers = s.peers ∧ (stagesDone due e s).presence = s.presence ∧ (stagesDone due e s).cells = s.cells := by
  unfold sameGround stagesDone
  simp

/-- The state in which an ending by a stage ends the entry: a LAPSE frame and LAPSE_SENT beside it change the link and the port
alone (R95). -/
theorem endedByStage_eq (cause : EndCause) (stage : Nat) (e : Entry) (s : State) : ∃ r, endedByStage cause stage e s = endEntry e.key cause r
    ∧ sameGround s r ∧ r.claims = s.claims ∧ r.selector = s.selector ∧ r.cues = s.cues ∧ r.peers = s.peers ∧ r.cells = s.cells := by
  refine ⟨_, rfl, ?_⟩
  unfold sameGround
  split <;> simp

theorem endedByStage_entry {s : State} {e x : Entry} (hd : distinctClaims s) (hx : s.entry e.key = some x) (hlive : x.state ≠ .ending)
    (hslot : slotFits s e.key x) (cause : EndCause) (stage : Nat) :
    (endedByStage cause stage e s).entry e.key = some (x.ended cause s.clock.stationTime) := by
  obtain ⟨r, heq, ⟨-, -, hclock, -⟩, hclaims, hselector, -⟩ := endedByStage_eq cause stage e s
  have hentries : r.claims.entries = s.claims.entries := congrArg ClaimTable.entries hclaims
  rw [heq, ← hclock]
  exact endEntry_entry_self (distinctClaims_congr (keys_congr hentries) hd) ((entry_congr hentries _).trans hx) hlive
    (by rw [slotFits, hselector]; exact hslot)

/-- The stages that are due fire one after the other, up to the first that ends the entry (R88 to R96). -/
theorem supervise_eq (fuel : Nat) : ∀ {s : State} {e : Entry}, s.entry e.key = some e → e.state ≠ .ending → 4 ≤ e.stagesFired + fuel →
    ((endingOf (stagesAt s.settings e.age e.stagesFired)).isSome → distinctClaims s ∧ slotFits s e.key e) →
    supervise fuel e.key s = (endingOf (stagesAt s.settings e.age e.stagesFired)).elim
      (stagesDone (stagesAt s.settings e.age e.stagesFired) e s) fun cause =>
        endedByStage cause (lastNumber (stagesAt s.settings e.age e.stagesFired) e.stagesFired) e
          (stagesDone (stagesAt s.settings e.age e.stagesFired) e s) := by
  induction fuel with
  | zero =>
    intro s e _ _ hfuel _
    rw [stagesAt, stagesBehind_end s.settings (Nat.add_zero e.stagesFired ▸ hfuel)]
    exact (stagesDone_nil e s).symm
  | succ n ih =>
    intro s e he hlive hfuel hslot
    rcases stagesAt_next s.settings e.age 4 e.stagesFired (Nat.le_add_left 4 _) with ⟨-, hdue⟩ | ⟨p, hp, hlt, hdue⟩
    · rw [supervise_idle (fun x hx => .inr (by rw [← Option.some.inj (he.symm.trans hx)]; exact hdue)), hdue]
      exact (stagesDone_nil e s).symm
    · by_cases hage : e.age < p.2.hold
      · rw [if_pos hage] at hdue
        rw [supervise_idle (fun x hx => .inr (by rw [← Option.some.inj (he.symm.trans hx)]; exact hdue)), hdue]
        exact (stagesDone_nil e s).symm
      · rw [if_neg hage] at hdue
        have hstep : supervise (n + 1) e.key s = supervise n e.key (fireStage p.1 p.2 e s) := by
          rw [supervise, he]
          dsimp only
          rw [live_iff.2 hlive, hp]
          exact if_neg hage
        rw [hstep, fireStage_eq]
        cases hending : stageEnding p.2.action with
        | some cause =>
          rw [hending, Option.isSome_some, if_pos rfl] at hdue
          have hone : endingOf [p] = some cause := hending
          rw [hdue, hone] at hslot ⊢
          obtain ⟨hd, hfits⟩ := hslot rfl
          refine supervise_idle (fun x hx => .inl ?_) n
          have hentry := endedByStage_entry (x := afterStages s.settings [p] e)
            (distinctClaims_congr (stagesDone_keys [p] e s) hd) (by rw [stagesDone_entry, if_pos rfl, he]; rfl)
            (by rw [(afterStages_keeps s.settings [p] e).2.2.2.2.1]; exact hlive)
            (fun h => by
              rw [(stagesDone_keeps [p] e s).2.1] at h
              rw [(afterStages_keeps s.settings [p] e).2.2.2.2.1]
              exact hfits h) cause p.1
          rw [← Option.some.inj (hentry.symm.trans hx)]
          rfl
        | none =>
          rw [hending, Option.isSome_none, if_neg Bool.false_ne_true] at hdue
          rw [hdue, endingOf_cons hending] at hslot ⊢
          obtain ⟨hkey, horigin, hnumber, hlocal, hstate, hsameAge, -, -, -, hfired⟩ := afterStage_keeps s.settings p e
          have hsettings : (stagesDone [p] e s).settings = s.settings := by simp [stagesDone]
          have hrest := ih (s := stagesDone [p] e s) (e := afterStage s.settings p e)
            (by rw [hkey, stagesDone_entry, if_pos rfl, he]; rfl) (by rw [hstate]; exact hlive) (by rw [hfired]; omega) (by
              rw [hsameAge, hfired, hsettings]
              intro hsome
              obtain ⟨hd, hfits⟩ := hslot hsome
              refine ⟨distinctClaims_congr (stagesDone_keys [p] e s) hd, fun h => ?_⟩
              rw [(stagesDone_keeps [p] e s).2.1, hkey] at h
              rw [hstate]
              exact hfits h)
          rw [hsameAge, hfired, hsettings, hkey, stagesDone_cons] at hrest
          rw [lastNumber_cons]
          refine hrest.trans ?_
          cases endingOf (stagesAt s.settings e.age p.1) with
          | none => rfl
          | some cause => exact endedByStage_congr hkey horigin hnumber hlocal cause _ _

end Sys2Proof.Machine
end
section
/-! The age step: the timers, the ageing, the supervision of each entry and the closing selection (R35, R36, R88, R133, R146). -/

namespace Sys2Proof.Machine

/-! ### The aged table -/

/-- The increase of the second count at the timers and the reference, in RUNNING (R133, R146, R165). -/
def secondCounted (s : State) : State :=
  (((s.setClock { s.clock with ageStepDue := false }).setReference s.reference.counted).setPresence s.presence.counted).setNames
    (s.names.counted s.settings.station)

/-- The state behind the timers in which every stepped entry is aged (R35, R36). -/
def agedTable (s : State) : State := setEntries (s.claims.entries.map (afterAge s)) (secondCounted s)

/-- The identities of the entries that are stepped, in admission order. -/
def steppedKeys (s : State) : List (Byte × Byte) := (s.claims.entries.filter (Entry.stepped s.clock.secondCount)).map Entry.key

theorem entry_stepped_iff {s : State} {e : Entry} : e.stepped s.clock.secondCount = true ↔ stepped s e := by
  rw [Entry.stepped, Bool.and_eq_true, live_iff, bne_iff_ne]

theorem aged_eq (s : State) (e : Entry) : e.aged s.settings = agedBy s e := by
  unfold Entry.aged agedBy
  rw [satInc_eq_min]
  rfl

theorem countSecond_eq {s : State} (h : s.running = true) :
    countSecond (s.setClock { s.clock with ageStepDue := false }) = secondCounted s := if_pos h

theorem ageEntries_eq {s : State} (h : s.running = true) : ageEntries (countSecond (s.setClock { s.clock with ageStepDue := false })) =
    select ((steppedKeys s).foldl (fun s k => supervise 4 k s) (agedTable s)) := by
  have hmap : (s.claims.entries.map fun e => if e.stepped s.clock.secondCount then e.aged s.settings else e) =
      s.claims.entries.map (afterAge s) := by
    refine List.map_congr_left fun e _ => ?_
    rw [afterAge, aged_eq]
    by_cases hstep : stepped s e
    · rw [if_pos (entry_stepped_iff.2 hstep), if_pos hstep]
    · rw [if_neg (fun h => hstep (entry_stepped_iff.1 h)), if_neg hstep]
  rw [countSecond_eq h, agedTable, ← hmap]
  rfl

theorem exec_ageStep {s : State} (hr : s.running = true) (hdue : s.clock.ageStepDue = true) : exec .ageStep s =
    .next (select ((steppedKeys s).foldl (fun s k => supervise 4 k s) (agedTable s))) := by
  have hrunning : (countSecond (s.setClock { s.clock with ageStepDue := false })).running = true :=
    State.running_congr (by rw [countSecond_eq hr]; rfl) hr
  have hstep : ageStep s = ageEntries (countSecond (s.setClock { s.clock with ageStepDue := false })) := by
    rw [ageStep, if_pos hdue]
    exact if_pos hrunning
  rw [← ageEntries_eq hr, ← hstep]
  exact unlessHeld_eq (free_of_running hr)

theorem agedTable_keeps (s : State) : (agedTable s).pending = s.pending ∧ (agedTable s).loader = s.loader
    ∧ (agedTable s).clock = { s.clock with ageStepDue := false } ∧ (agedTable s).settings = s.settings
    ∧ (agedTable s).selector = s.selector ∧ (agedTable s).cues = s.cues ∧ (agedTable s).tx = s.tx ∧ (agedTable s).peers = s.peers
    ∧ (agedTable s).presence = s.presence.counted ∧ (agedTable s).names = s.names.counted s.settings.station
    ∧ (agedTable s).cells = s.cells ∧ (agedTable s).reference = s.reference.counted ∧ (agedTable s).port = s.port
    ∧ (agedTable s).claims = { s.claims with entries := s.claims.entries.map (afterAge s) } :=
  ⟨rfl, rfl, rfl, rfl, rfl, rfl, rfl, rfl, rfl, rfl, rfl, rfl, rfl, rfl⟩

theorem afterAge_of_stepped {s : State} {e : Entry} (h : stepped s e) : afterAge s e = agedBy s e := if_pos h

theorem afterAge_of_not {s : State} {e : Entry} (h : ¬ stepped s e) : afterAge s e = e := if_neg h

/-- The ageing changes the age and the score of an entry alone. -/
theorem afterAge_keeps (s : State) (e : Entry) : (afterAge s e).key = e.key ∧ (afterAge s e).state = e.state
    ∧ (afterAge s e).stagesFired = e.stagesFired ∧ (afterAge s e).candidate = e.candidate
    ∧ (afterAge s e).origin = e.origin ∧ (afterAge s e).number = e.number ∧ (afterAge s e).isLocal = e.isLocal
    ∧ (afterAge s e).source = e.source := by
  unfold afterAge
  split <;> exact ⟨rfl, rfl, rfl, rfl, rfl, rfl, rfl, rfl⟩

theorem agedTable_keys (s : State) : (agedTable s).keys = s.keys := by
  show (s.claims.entries.map (afterAge s)).map Entry.key = s.claims.entries.map Entry.key
  rw [List.map_map]
  exact List.map_congr_left fun e _ => (afterAge_keeps s e).1

theorem agedTable_entry {s : State} (hd : distinctClaims s) {x : Entry} (hx : x ∈ s.claims.entries) :
    (agedTable s).entry x.key = some (afterAge s x) := by
  rw [← (afterAge_keeps s x).1]
  exact entry_of_mem (distinctClaims_congr (agedTable_keys s) hd) (List.mem_map_of_mem hx)

theorem agedTable_bestWaiting (s : State) : (agedTable s).bestWaiting = bestAged s := bestWaiting_eq (agedTable s)

/-- The stages due on a stepped entry are those at its new age. -/
theorem stagesAt_agedBy (s : State) (e : Entry) : stagesAt s.settings (agedBy s e).age (agedBy s e).stagesFired = stagesDue s e := rfl

/-- An entry on which no stage fires is left by the supervision. -/
theorem idleAt_aged {s : State} (hd : distinctClaims s) {x : Entry} (hx : x ∈ s.claims.entries) (hstep : stepped s x)
    (hdue : stagesDue s x = []) : IdleAt (agedTable s) x.key := by
  intro y hy
  rw [agedTable_entry hd hx, afterAge_of_stepped hstep] at hy
  rw [← Option.some.inj hy]
  exact .inr hdue

theorem mem_steppedKeys {s : State} {k : Byte × Byte} : k ∈ steppedKeys s ↔ ∃ x ∈ s.claims.entries, stepped s x ∧ x.key = k := by
  unfold steppedKeys
  simp only [List.mem_map, List.mem_filter, entry_stepped_iff, and_assoc]

/-- Keys at which nothing fires leave the table to the selection. -/
theorem foldl_supervise_idle {l : List (Byte × Byte)} {s : State} (h : ∀ k ∈ l, IdleAt s k) :
    l.foldl (fun s k => supervise 4 k s) s = s := by
  induction l with
  | nil => rfl
  | cons k l ih =>
    rw [List.foldl_cons, supervise_idle (h k List.mem_cons_self)]
    exact ih fun j hj => h j (List.mem_cons_of_mem k hj)

theorem sameGround_select (s : State) : sameGround s (select s) := by
  unfold sameGround
  simp

/-! ### O27: an age step in which no entry is ended -/

/-- R45: a selection run changes the states of entries alone. -/
theorem select_entries (s : State) : (select s).claims.entries.map (fun e => { e with state := .waiting }) =
    s.claims.entries.map (fun e => { e with state := .waiting }) := by
  have hset (k : Byte × Byte) (st : EntryState) (u : State) :
      (setEntryState k st u).claims.entries.map (fun e => { e with state := .waiting }) =
        u.claims.entries.map (fun e => { e with state := .waiting }) := by
    rw [setEntryState_claims, List.map_map]
    refine List.map_congr_left fun e _ => ?_
    rw [Function.comp_apply]
    split <;> rfl
  rcases select_spec s with heq | ⟨x, -, -, heq⟩ | ⟨k, x, y, -, -, -, -, -, heq⟩ <;> rw [heq]
  · rw [onAirChange_claims, hset]
  · rw [onAirChange_claims, hset, hset]

/-- R45, R52: a selection run leaves everything as it is, or makes an on-air change. -/
theorem select_changes (s : State) : select s = s ∨ ((select s).selector ≠ s.selector ∧ (select s).presence = presenceActive) := by
  have hnext (b : Byte) : b + 1 ≠ b := by simp
  rcases select_spec s with heq | ⟨x, -, -, heq⟩ | ⟨k, x, y, -, -, -, -, -, heq⟩
  · exact .inl heq
  · rw [heq]
    refine .inr ⟨fun h => ?_, (onAirChange_spec _ _ _).2.2.2⟩
    rw [onAirChange_selector] at h
    exact hnext _ (congrArg Selector.sequence h)
  · rw [heq]
    refine .inr ⟨fun h => ?_, (onAirChange_spec _ _ _).2.2.2⟩
    rw [onAirChange_selector] at h
    exact hnext _ (congrArg Selector.sequence h)

/-- With every stage off no entry is left otherwise by the supervision. -/
theorem idleAt_off {s : State} (h : ∀ i : Fin 4, s.settings.stages[i].hold = 0) (k : Byte × Byte) : IdleAt s k :=
  fun e _ => .inr (stagesAt_off h e.age e.stagesFired)

/-- An age step in which no stage fires ages the entries and closes with a selection run. -/
theorem exec_ageStep_idle {s : State} (hr : s.running = true) (hdue : s.clock.ageStepDue = true)
    (hidle : ∀ e ∈ s.claims.entries, stepped s e → stagesDue s e = [])
    (h : distinctClaims s ∨ ∀ i : Fin 4, s.settings.stages[i].hold = 0) : exec .ageStep s = .next (select (agedTable s)) := by
  rw [exec_ageStep hr hdue, foldl_supervise_idle]
  intro k hk
  rcases h with hd | hoff
  · obtain ⟨x, hx, hstep, rfl⟩ := mem_steppedKeys.1 hk
    exact idleAt_aged hd hx hstep (hidle x hx hstep)
  · exact idleAt_off (s := agedTable s) hoff k

theorem counted_reference (m : ReferenceMonitor) : m.counted = { m with
    backupSeconds := if m.state = .locked then m.backupSeconds else if m.backupSeconds < 65535 then m.backupSeconds + 1 else 65535 } := by
  unfold ReferenceMonitor.counted
  split <;> rfl

/-- Stages that end no entry write the Claim Table and the site port alone, whatever the entries on which they fire. -/
theorem foldl_supervise_goesOn {l : List (Byte × Byte)} (hl : l.Nodup) : ∀ {s : State},
    (∀ k ∈ l, ∃ e, s.entry k = some e ∧ e.state ≠ .ending ∧ endingOf (stagesAt s.settings e.age e.stagesFired) = none) →
    ∃ entries port, l.foldl (fun s k => supervise 4 k s) s = (setEntries entries s).setPort port := by
  induction l with
  | nil => exact fun {s} _ => ⟨s.claims.entries, s.port, rfl⟩
  | cons k l ih =>
    intro s h
    obtain ⟨hk, hnodup⟩ := List.nodup_cons.1 hl
    obtain ⟨e, he, hlive, hend⟩ := h k List.mem_cons_self
    obtain rfl := entry_key he
    have hone : supervise 4 e.key s = stagesDone (stagesAt s.settings e.age e.stagesFired) e s := by
      rw [supervise_eq 4 he hlive (Nat.le_add_left 4 _) (fun hsome => by rw [hend] at hsome; cases hsome), hend]
      rfl
    obtain ⟨entries, port, hrest⟩ := ih hnodup (s := supervise 4 e.key s) fun j hj => by
      obtain ⟨x, hx, hx'⟩ := h j (List.mem_cons_of_mem _ hj)
      refine ⟨x, ?_, ?_⟩
      · rw [hone, stagesDone_entry, if_neg (fun heq : j = e.key => hk (heq ▸ hj))]
        exact hx
      · rw [hone]
        exact hx'
    refine ⟨entries, port, ?_⟩
    rw [List.foldl_cons, hrest, hone]
    rfl

theorem nodup_steppedKeys {s : State} (hd : distinctClaims s) : (steppedKeys s).Nodup :=
  ((distinctClaims_iff s).1 hd).sublist (List.filter_sublist.map Entry.key)

/-- An age step in which no entry is ended is its timers, its ageing and what its stages leave, and a selection run. -/
theorem exec_ageStep_goesOn {s : State} (hr : s.running = true) (hdue : s.clock.ageStepDue = true) (hd : distinctClaims s)
    (hend : ∀ e ∈ s.claims.entries, stepped s e → endingDue s e = none) :
    ∃ entries port, exec .ageStep s = .next (select ((setEntries entries (agedTable s)).setPort port)) := by
  obtain ⟨entries, port, hfold⟩ := foldl_supervise_goesOn (nodup_steppedKeys hd) (s := agedTable s) fun k hk => by
    obtain ⟨x, hx, hstep, rfl⟩ := mem_steppedKeys.1 hk
    refine ⟨afterAge s x, agedTable_entry hd hx, ?_, ?_⟩
    · rw [(afterAge_keeps s x).2.1]
      exact hstep.1
    · rw [afterAge_of_stepped hstep]
      exact hend x hx hstep
  exact ⟨entries, port, by rw [exec_ageStep hr hdue, hfold]⟩

/-- The timers of the Presence Scheduler at an increase of the second count (R133). -/
theorem counted_presence (p : Presence) : p.counted.level = p.level
    ∧ p.counted.presenceTimer = (if p.presenceTimer < 60 then p.presenceTimer + 1 else 60)
    ∧ (∀ limit, p.level.downshiftLimit = some limit → p.downshiftTimer ≤ limit →
        p.counted.downshiftTimer = min (p.downshiftTimer + 1) limit
        ∧ p.counted.downshiftDue = decide (limit ≤ p.downshiftTimer + 1))
    ∧ (p.level.downshiftLimit = none → p.counted.downshiftTimer = p.downshiftTimer) := by
  refine ⟨rfl, rfl, fun limit hlimit _ => ?_, fun hnone => ?_⟩
  · have htimer : p.counted.downshiftTimer = min (p.downshiftTimer + 1) limit := by
      rw [← satInc_eq_min, Presence.counted, hlimit]
    have hdue : p.counted.downshiftDue = decide (limit ≤ p.counted.downshiftTimer) := by
      unfold Presence.counted Presence.atLimit
      dsimp only
      rw [hlimit]
    refine ⟨htimer, ?_⟩
    rw [hdue, htimer]
    exact decide_eq_decide.2 (by omega)
  · rw [Presence.counted, hnone]

/-- Settles O27: a step in which no stage fires, one in which no stage ends an entry, and a second step at the same increase. -/
theorem ageStepAgesEntriesAndCountsTimers : Obligations.AgeStepAgesEntriesAndCountsTimers := by
  refine ⟨fun s hr hdue hidle h => ?_, fun s hr hdue hd hend => ?_, fun s hdue => ?_⟩
  · obtain ⟨hpending, hloader, hclock, hsettings, hnames, hreference⟩ := sameGround_select (agedTable s)
    refine ⟨_, exec_ageStep_idle hr hdue hidle h, ?_, hclock, ?_, hpending, hloader, hsettings, ?_, ?_, ?_, ?_⟩
    · rw [select_entries]
      exact List.map_map
    · rw [hreference]
      exact counted_reference s.reference
    · rw [(select_keeps (agedTable s)).2.2.2.2.1]
      rfl
    · rw [(select_keeps (agedTable s)).2.2.2.2.2.1]
      rfl
    · rw [hnames]
      rfl
    · rw [hnames]
      rfl
  · obtain ⟨entries, port, hexec⟩ := exec_ageStep_goesOn hr hdue hd hend
    generalize hw : (setEntries entries (agedTable s)).setPort port = w at hexec
    have hselector : w.selector = s.selector := by rw [← hw]; rfl
    have hpresence : w.presence = s.presence.counted := by rw [← hw]; rfl
    have hnames : w.names = s.names.counted s.settings.station := by rw [← hw]; rfl
    refine ⟨_, hexec, ?_, fun hsame => ?_, fun hchanged => ?_⟩
    · rw [(sameGround_select w).2.2.2.2.1, hnames]
      rfl
    · rcases select_changes w with heq | ⟨hne, -⟩
      · rw [heq, hpresence]
        exact counted_presence s.presence
      · exact absurd (hsame.trans hselector.symm) hne
    · rcases select_changes w with heq | ⟨-, hactive⟩
      · rw [heq] at hchanged
        exact absurd hselector hchanged
      · exact hactive
  · have hstep : ageStep s = s := if_neg (by rw [hdue]; exact Bool.false_ne_true)
    have hexec : exec .ageStep s = unlessHeld ageStep s := rfl
    rw [hexec]
    unfold unlessHeld
    rw [hstep, ite_self]

end Sys2Proof.Machine
end
section
/-! The age step in which stages fire on one entry alone: the state behind its stages and its ending (R89 to R96). -/

namespace Sys2Proof.Machine

/-! ### The table behind the stages -/

/-- The stages that are due on the stepped entry `e` have fired on the aged table, before an ending. -/
def supervisedTable (s : State) (e : Entry) : State := stagesDone (stagesDue s e) (agedBy s e) (agedTable s)

/-- The state behind the stages that are due on the stepped entry `e` and the ending, if one of them ends it. -/
def supervisedState (s : State) (e : Entry) : State :=
  (endingDue s e).elim (supervisedTable s e) fun cause => endedByStage cause (lastFired s e) (agedBy s e) (supervisedTable s e)

theorem supervisedBy_eq {s : State} {e : Entry} (h : e.demotions ≤ 3) :
    supervisedBy s e = afterStages s.settings (stagesDue s e) (agedBy s e) :=
  (afterStages_eq s.settings (stagesDue s e) (e := agedBy s e) h rfl).symm

/-- What the stages leave of an entry: its identity, state, candidacy and source. -/
theorem supervisedBy_keeps (s : State) (e : Entry) : (supervisedBy s e).key = e.key ∧ (supervisedBy s e).state = e.state
    ∧ (supervisedBy s e).candidate = e.candidate ∧ (supervisedBy s e).origin = e.origin ∧ (supervisedBy s e).number = e.number
    ∧ (supervisedBy s e).isLocal = e.isLocal ∧ (supervisedBy s e).source = e.source := ⟨rfl, rfl, rfl, rfl, rfl, rfl, rfl⟩

/-- The events of the stages, but for LAPSE_SENT. -/
theorem supervisedTable_port (s : State) (e : Entry) : stagesPosted s e =
    if e.isLocal = false ∧ endingDue s e = some .lapsed then
      portWith ⟨.lapseSent, s.clock.stationTime, e.origin, e.number, BitVec.ofNat 8 (lastFired s e)⟩ (supervisedTable s e).port
    else (supervisedTable s e).port := by
  have hport : (supervisedTable s e).port = (stagesDue s e).foldl (stagePort s.clock.stationTime e.origin e.number) s.port := rfl
  rw [hport, foldl_stagePort]
  rfl

/-- The stages write the Claim Table and the site port. -/
theorem supervisedTable_keeps (s : State) (e : Entry) : (supervisedTable s e).selector = s.selector
    ∧ (supervisedTable s e).cues = s.cues ∧ (supervisedTable s e).tx = s.tx ∧ (supervisedTable s e).peers = s.peers
    ∧ (supervisedTable s e).cells = s.cells ∧ (supervisedTable s e).settings = s.settings
    ∧ (supervisedTable s e).clock = { s.clock with ageStepDue := false } ∧ (supervisedTable s e).loader = s.loader :=
  ⟨rfl, rfl, rfl, rfl, rfl, rfl, rfl, rfl⟩

theorem supervisedTable_claims (s : State) (e : Entry) : (supervisedTable s e).claims =
    (updateEntry e.key (afterStages s.settings (stagesDue s e)) (agedTable s)).claims := rfl

theorem supervisedTable_entry (s : State) (e : Entry) (j : Byte × Byte) : (supervisedTable s e).entry j =
    if j = e.key then ((agedTable s).entry e.key).map (afterStages s.settings (stagesDue s e)) else (agedTable s).entry j :=
  stagesDone_entry (stagesDue s e) (agedBy s e) (agedTable s) j

/-- Stages fire on one entry alone: it is stepped, and on no other stepped entry one is due. -/
structure OnlyStagedOn (s : State) (e : Entry) : Prop where
  ok : SlotOk s
  mem : e ∈ s.claims.entries
  steps : stepped s e
  demotions : e.demotions ≤ 3
  others : ∀ x ∈ s.claims.entries, x ≠ e → stepped s x → stagesDue s x = []

namespace OnlyStagedOn
variable {s : State} {e : Entry}

theorem entry (h : OnlyStagedOn s e) : s.entry e.key = some e := entry_of_mem h.ok.distinct h.mem

theorem aged_entry (h : OnlyStagedOn s e) : (agedTable s).entry e.key = some (agedBy s e) := by
  rw [agedTable_entry h.ok.distinct h.mem, afterAge_of_stepped h.steps]

theorem aged_ok (h : OnlyStagedOn s e) : SlotOk (agedTable s) where
  distinct := distinctClaims_congr (agedTable_keys s) h.ok.distinct
  slot := by
    have hkeys : (agedTable s).slotKeys = s.slotKeys :=
      slotKeys_map (s := s) (fun x => (afterAge_keeps s x).1) fun x => (afterAge_keeps s x).2.1
    exact hkeys.trans h.ok.slot

theorem table_ok (h : OnlyStagedOn s e) : SlotOk (supervisedTable s e) where
  distinct := distinctClaims_congr (stagesDone_keys _ _ _) h.aged_ok.distinct
  slot := by
    have hkeys : (supervisedTable s e).slotKeys = (agedTable s).slotKeys := by
      refine slotKeys_map (s := agedTable s) (g := fun x => if x.key == e.key then afterStages s.settings (stagesDue s e) x else x)
        (fun x => ?_) fun x => ?_
      · split
        · exact (afterStages_keeps s.settings (stagesDue s e) x).1
        · rfl
      · split
        · exact (afterStages_keeps s.settings (stagesDue s e) x).2.2.2.2.1
        · rfl
    exact hkeys.trans h.aged_ok.slot

theorem table_entry (h : OnlyStagedOn s e) : (supervisedTable s e).entry e.key = some (supervisedBy s e) := by
  rw [supervisedTable_entry, if_pos rfl, h.aged_entry, supervisedBy_eq h.demotions]
  rfl

theorem ne_key (h : OnlyStagedOn s e) {x : Entry} (hx : x ∈ s.claims.entries) (hne : x ≠ e) : x.key ≠ e.key :=
  fun heq => hne (eq_of_key_eq h.ok.distinct hx h.mem heq)

theorem table_other (h : OnlyStagedOn s e) {x : Entry} (hx : x ∈ s.claims.entries) (hne : x ≠ e) :
    (supervisedTable s e).entry x.key = some (afterAge s x) := by
  rw [supervisedTable_entry, if_neg (h.ne_key hx hne), agedTable_entry h.ok.distinct hx]

/-- The other entries behind the stages and the ending differ from the aged ones in their state at most. -/
theorem state_other (h : OnlyStagedOn s e) {x : Entry} (hx : x ∈ s.claims.entries) (hne : x ≠ e) :
    ∃ st, (supervisedState s e).entry x.key = some { afterAge s x with state := st } := by
  unfold supervisedState
  cases endingDue s e with
  | none => exact ⟨(afterAge s x).state, h.table_other hx hne⟩
  | some cause =>
    obtain ⟨r, heq, -, hclaims, -⟩ := endedByStage_eq cause (lastFired s e) (agedBy s e) (supervisedTable s e)
    have hentries := congrArg ClaimTable.entries hclaims
    obtain ⟨st, hst, -⟩ := endEntry_entry_other (distinctClaims_congr (keys_congr hentries) h.table_ok.distinct) (cause := cause)
      (j := (agedBy s e).key) (h.ne_key hx hne) ((entry_congr hentries x.key).trans (h.table_other hx hne))
    refine ⟨st, ?_⟩
    rw [Option.elim_some, heq]
    exact hst

theorem supervise (h : OnlyStagedOn s e) : Machine.supervise 4 e.key (agedTable s) = supervisedState s e :=
  supervise_eq 4 (e := agedBy s e) h.aged_entry h.steps.1 (Nat.le_add_left 4 _)
    fun _ => ⟨h.aged_ok.distinct, h.aged_ok.slotFits h.aged_entry⟩

theorem state_settings (s : State) (e : Entry) : (supervisedState s e).settings = s.settings := by
  unfold supervisedState
  cases endingDue s e with
  | none => rfl
  | some cause =>
    obtain ⟨r, heq, ⟨-, -, -, hsettings, -⟩, -⟩ := endedByStage_eq cause (lastFired s e) (agedBy s e) (supervisedTable s e)
    rw [Option.elim_some, heq, (endEntry_keeps _ _ _).2.2.2.1, hsettings]
    rfl

/-- The supervision pass of such an age step is that of the one entry. -/
theorem pass (h : OnlyStagedOn s e) : (steppedKeys s).foldl (fun s k => Machine.supervise 4 k s) (agedTable s) = supervisedState s e := by
  have hnodup := nodup_steppedKeys h.ok.distinct
  obtain ⟨before, behind, hsplit⟩ := List.append_of_mem (mem_steppedKeys.2 ⟨e, h.mem, h.steps, rfl⟩)
  rw [hsplit] at hnodup
  have hkeys : ∀ k, (k ∈ before ∨ k ∈ behind) → ∃ x ∈ s.claims.entries, x ≠ e ∧ stepped s x ∧ x.key = k := by
    intro k hk
    have hmem : k ∈ steppedKeys s := by
      rw [hsplit, List.mem_append, List.mem_cons]
      exact hk.imp_right .inr
    obtain ⟨x, hx, hstep, rfl⟩ := mem_steppedKeys.1 hmem
    refine ⟨x, hx, ?_, hstep, rfl⟩
    rintro rfl
    rw [List.nodup_append, List.nodup_cons] at hnodup
    obtain ⟨-, ⟨hbehind, -⟩, hbefore⟩ := hnodup
    exact hk.elim (fun hk => hbefore _ hk _ List.mem_cons_self rfl) hbehind
  have hfirst : before.foldl (fun s k => Machine.supervise 4 k s) (agedTable s) = agedTable s := by
    refine foldl_supervise_idle fun k hk => ?_
    obtain ⟨x, hx, hne, hstep, rfl⟩ := hkeys k (.inl hk)
    exact idleAt_aged h.ok.distinct hx hstep (h.others x hx hne hstep)
  rw [hsplit, List.foldl_append, hfirst, List.foldl_cons, h.supervise]
  refine foldl_supervise_idle fun k hk => ?_
  obtain ⟨x, hx, hne, hstep, rfl⟩ := hkeys k (.inr hk)
  obtain ⟨st, hst⟩ := h.state_other hx hne
  intro y hy
  rw [← Option.some.inj (hst.symm.trans hy), state_settings, afterAge_of_stepped hstep]
  exact .inr (h.others x hx hne hstep)

theorem exec (h : OnlyStagedOn s e) (hr : s.running = true) (hdue : s.clock.ageStepDue = true) :
    Machine.exec .ageStep s = .next (select (supervisedState s e)) := by
  rw [exec_ageStep hr hdue, h.pass]

theorem state_ok (h : OnlyStagedOn s e) : SlotOk (supervisedState s e) := by
  unfold supervisedState
  cases endingDue s e with
  | none => exact h.table_ok
  | some cause =>
    obtain ⟨r, heq, -, hclaims, hselector, -⟩ := endedByStage_eq cause (lastFired s e) (agedBy s e) (supervisedTable s e)
    rw [Option.elim_some, heq]
    exact (h.table_ok.congr (congrArg ClaimTable.entries hclaims) (congrArg Selector.onAir hselector)).endEntry _ _

theorem state_keys (s : State) (e : Entry) : (supervisedState s e).keys = s.keys := by
  have htable : (supervisedTable s e).keys = s.keys := (stagesDone_keys _ _ _).trans (agedTable_keys s)
  unfold supervisedState
  cases endingDue s e with
  | none => exact htable
  | some cause =>
    obtain ⟨r, heq, -, hclaims, -⟩ := endedByStage_eq cause (lastFired s e) (agedBy s e) (supervisedTable s e)
    rw [Option.elim_some, heq, keys_endEntry, keys_congr (congrArg ClaimTable.entries hclaims), htable]

end OnlyStagedOn

end Sys2Proof.Machine
end
section
/-! The ending of an entry by a stage (R93 to R96): the frames, the events, the peers and the cue sources. -/

namespace Sys2Proof.Machine

/-! ### The state in which a stage ends the entry -/

/-- The state in which the ending of `e` by its last stage begins: where it lapses a remote claim, the LAPSE frame is offered and
LAPSE_SENT posted (R95). -/
def beforeEnding (s : State) (e : Entry) (cause : EndCause) : State :=
  if e.isLocal = false ∧ cause = .lapsed then
    postEvent .lapseSent e.origin e.number (countByte (lastFired s e)) (offer (.lapse e.origin e.number) (supervisedTable s e))
  else supervisedTable s e

theorem supervisedState_none {s : State} {e : Entry} (h : endingDue s e = none) : supervisedState s e = supervisedTable s e := by
  unfold supervisedState
  rw [h]
  rfl

theorem supervisedState_some {s : State} {e : Entry} {cause : EndCause} (h : endingDue s e = some cause) :
    supervisedState s e = endEntry e.key cause (beforeEnding s e cause) := by
  unfold supervisedState
  rw [h]
  rfl

theorem beforeEnding_kept {s : State} {e : Entry} {cause : EndCause} (h : cause = .localEnd ∨ e.isLocal = true) :
    beforeEnding s e cause = supervisedTable s e := by
  refine if_neg fun hlapse => ?_
  rcases h with h | h
  · rw [h] at hlapse
    cases hlapse.2
  · rw [h] at hlapse
    cases hlapse.1

theorem beforeEnding_lapse {s : State} {e : Entry} (h : e.isLocal = false) : beforeEnding s e .lapsed =
    (offer (.lapse e.origin e.number) (supervisedTable s e)).setPort
      (portWith ⟨.lapseSent, s.clock.stationTime, e.origin, e.number, BitVec.ofNat 8 (lastFired s e)⟩
        (offer (.lapse e.origin e.number) (supervisedTable s e)).port) := by
  refine (if_pos ⟨h, rfl⟩).trans ?_
  rw [postEvent_eq, (offer_keeps _ _).2.2.1]
  rfl

theorem beforeEnding_keeps (s : State) (e : Entry) (cause : EndCause) :
    sameGround (supervisedTable s e) (beforeEnding s e cause) ∧ (beforeEnding s e cause).claims = (supervisedTable s e).claims
    ∧ (beforeEnding s e cause).selector = s.selector ∧ (beforeEnding s e cause).cues = s.cues
    ∧ (beforeEnding s e cause).peers = s.peers ∧ (beforeEnding s e cause).cells = s.cells := by
  obtain ⟨hselector, hcues, -, hpeers, hcells, -⟩ := supervisedTable_keeps s e
  rw [← hselector, ← hcues, ← hpeers, ← hcells]
  unfold sameGround beforeEnding
  split <;> simp

theorem beforeEnding_clock (s : State) (e : Entry) (cause : EndCause) :
    (beforeEnding s e cause).clock = { s.clock with ageStepDue := false } := (beforeEnding_keeps s e cause).1.2.2.1

theorem beforeEnding_settings (s : State) (e : Entry) (cause : EndCause) : (beforeEnding s e cause).settings = s.settings :=
  (beforeEnding_keeps s e cause).1.2.2.2.1

/-- The causes with which a stage ends an entry. -/
theorem endingDue_cases {s : State} {e : Entry} {cause : EndCause} (h : endingDue s e = some cause) :
    cause = .localEnd ∨ cause = .lapsed := by
  obtain ⟨p, -, hp⟩ := Option.bind_eq_some_iff.1 h
  cases haction : p.2.action <;> rw [haction] at hp <;> cases hp
  · exact .inl rfl
  · exact .inr rfl

theorem ne_released {s : State} {e : Entry} {cause : EndCause} (h : endingDue s e = some cause) : cause ≠ .released := by
  rcases endingDue_cases h with rfl | rfl <;> decide

/-- The link and the port when the ending begins, with two places free in the queue (R95). -/
theorem beforeEnding_link {s : State} {e : Entry} {cause : EndCause} (hend : endingDue s e = some cause)
    (hroom : s.tx.queue.length < 7) : (beforeEnding s e cause).tx.queue.length < 8
    ∧ (beforeEnding s e cause).port = stagesPosted s e := by
  have hroom' : (supervisedTable s e).tx.queue.length < 8 := Nat.lt_succ_of_lt hroom
  rw [supervisedTable_port, hend]
  by_cases hlapse : e.isLocal = false ∧ cause = .lapsed
  · obtain ⟨hremote, rfl⟩ := hlapse
    rw [if_pos ⟨hremote, rfl⟩, beforeEnding_lapse hremote]
    refine ⟨?_, ?_⟩
    · show (offerFrame _ (supervisedTable s e)).tx.queue.length < 8
      rw [offerFrame_queue_of_room hroom', length_insertFrame]
      exact Nat.succ_lt_succ hroom
    · rw [State.setPort_port, offer_port hroom']
  · rw [if_neg (fun h => hlapse ⟨h.1, Option.some.inj h.2⟩)]
    rw [show beforeEnding s e cause = supervisedTable s e from if_neg hlapse]
    exact ⟨hroom', rfl⟩

theorem lapse_queued {s : State} {e : Entry} (hremote : e.isLocal = false) (hroom : s.tx.queue.length < 7) :
    ownFrame s (.lapse e.origin e.number) ∈ (beforeEnding s e .lapsed).tx.queue := by
  rw [beforeEnding_lapse hremote]
  show _ ∈ (offerFrame (ownFrame (supervisedTable s e) (.lapse e.origin e.number)) (supervisedTable s e)).tx.queue
  exact offerFrame_mem (.inl (Nat.lt_succ_of_lt hroom))

namespace OnlyStagedOn
variable {s : State} {e : Entry} {cause : EndCause}

theorem before_ok (h : OnlyStagedOn s e) (cause : EndCause) : SlotOk (beforeEnding s e cause) := by
  obtain ⟨-, hclaims, hselector, -⟩ := beforeEnding_keeps s e cause
  exact h.table_ok.congr (congrArg ClaimTable.entries hclaims) (congrArg Selector.onAir hselector)

theorem before_entry (h : OnlyStagedOn s e) (cause : EndCause) :
    (beforeEnding s e cause).entry e.key = some (supervisedBy s e) :=
  (entry_congr (congrArg ClaimTable.entries (beforeEnding_keeps s e cause).2.1) e.key).trans h.table_entry

theorem before_live (h : OnlyStagedOn s e) : (supervisedBy s e).state ≠ .ending := h.steps.1

theorem ended_entry (h : OnlyStagedOn s e) (hend : endingDue s e = some cause) :
    (supervisedState s e).entry e.key = some (endedAs cause s.clock.stationTime (supervisedBy s e)) := by
  rw [supervisedState_some hend, endEntry_entry_self (h.before_ok cause).distinct (h.before_entry cause) h.before_live
    ((h.before_ok cause).slotFits (h.before_entry cause)), beforeEnding_clock]
  rfl

theorem ended_onAir_ne (h : OnlyStagedOn s e) (hend : endingDue s e = some cause) :
    (supervisedState s e).selector.onAir ≠ some e.key := by
  rw [supervisedState_some hend]
  exact endEntry_onAir_ne (h.before_ok cause).distinct (h.before_entry cause) h.before_live
    ((h.before_ok cause).slotFits (h.before_entry cause))

theorem ended_presence (h : OnlyStagedOn s e) (hend : endingDue s e = some cause) :
    (supervisedState s e).presence = presenceActive := by
  rw [supervisedState_some hend]
  exact endEntry_presence (h.before_entry cause) h.before_live

/-! ### What an ending by a stage does beside the entry -/

/-- The frames but PRESENCE behind the ending and the closing selection: those before it, and the RELEASE of a local claim. -/
theorem ended_frames (h : OnlyStagedOn s e) (hend : endingDue s e = some cause) :
    otherFrames (select (supervisedState s e)).tx.queue = otherFrames (if e.isLocal then
      (offer (.release e.number 0) (updateEntry e.key (Entry.ended cause s.clock.stationTime) (beforeEnding s e cause))).tx
      else (beforeEnding s e cause).tx).queue := by
  have hframes := endEntry_others_frames (cause := cause) (h.before_entry cause) h.before_live
  rw [beforeEnding_clock] at hframes
  rw [select_others, supervisedState_some hend]
  exact hframes

theorem ended_peers_remote (h : OnlyStagedOn s e) (hend : endingDue s e = some cause) (hremote : e.isLocal = false) (p : Byte) :
    (select (supervisedState s e)).peer p =
      if p = e.origin ∧ isStation e.origin = true then
        { s.peer e.origin with lastEnded := nextLastEnded (s.peer e.origin).lastEnded e.number }
      else s.peer p := by
  have hcause : cause ≠ .restarted := by rcases endingDue_cases hend with rfl | rfl <;> decide
  have hpeers := (beforeEnding_keeps s e cause).2.2.2.2.1
  rw [peer_congr (select_keeps _).2.2.2.2.2.1, supervisedState_some hend,
    endEntry_remote_peers (h.before_entry cause) h.before_live hremote hcause, noteEnded_spec, peer_congr hpeers, peer_congr hpeers]
  rfl

theorem ended_peers_local (h : OnlyStagedOn s e) (hend : endingDue s e = some cause) (hlocal : e.isLocal = true) (p : Byte) :
    (select (supervisedState s e)).peer p = s.peer p := by
  rw [peer_congr (select_keeps _).2.2.2.2.2.1, supervisedState_some hend,
    peer_congr (endEntry_local_peers (h.before_entry cause) h.before_live hlocal),
    peer_congr (beforeEnding_keeps s e cause).2.2.2.2.1]

theorem ended_cues_remote (h : OnlyStagedOn s e) (hend : endingDue s e = some cause) (hremote : e.isLocal = false) :
    (select (supervisedState s e)).cues = s.cues := by
  rw [(select_keeps _).2.2.2.2.1, supervisedState_some hend, endEntry_remote_cues (h.before_entry cause) h.before_live hremote,
    (beforeEnding_keeps s e cause).2.2.2.1]

theorem ended_cues_local (h : OnlyStagedOn s e) (hend : endingDue s e = some cause) (hlocal : e.isLocal = true) :
    (select (supervisedState s e)).cues =
      (cueNotice e.source cause (s.setClock { s.clock with ageStepDue := false })).cues := by
  rw [(select_keeps _).2.2.2.2.1, supervisedState_some hend, endEntry_local_cues (h.before_entry cause) h.before_live hlocal]
  exact cueNotice_cues_congr _ _ (beforeEnding_keeps s e cause).2.2.2.1
    (beforeEnding_clock s e cause)

theorem frame_kept (h : OnlyStagedOn s e) (hend : endingDue s e = some cause) (hremote : e.isLocal = false) {f : Frame}
    (hf : f ∈ (beforeEnding s e cause).tx.queue) (hkind : f.isPresence = false) : f ∈ (select (supervisedState s e)).tx.queue := by
  have hmem := mem_otherFrames.2 ⟨hf, hkind⟩
  have hframes := h.ended_frames hend
  rw [if_neg (by rw [hremote]; exact Bool.false_ne_true)] at hframes
  rw [← hframes] at hmem
  exact (mem_otherFrames.1 hmem).1

/-- Where no LAPSE frame is queued, none comes into the queue. -/
theorem ended_quiet (h : OnlyStagedOn s e) (hend : endingDue s e = some cause) (hkept : cause = .localEnd ∨ e.isLocal = true)
    {f : Frame} (hf : f ∈ (select (supervisedState s e)).tx.queue) (hkind : f.body.kindCode = 4) : f ∈ s.tx.queue := by
  have hpresence : f.isPresence = false := by
    rw [← Bool.not_eq_true, isPresence_iff]
    rintro ⟨level, fp, hbody⟩
    rw [hbody] at hkind
    cases hkind
  have hmem := mem_otherFrames.2 ⟨hf, hpresence⟩
  rw [h.ended_frames hend, beforeEnding_kept hkept] at hmem
  have hmem := (mem_otherFrames.1 hmem).1
  split at hmem
  · have hrelease {g : Frame} {q : List Frame} (hg : g.body.kindCode = 3) (hin : f ∈ insertFrame g q) : f ∈ q := by
      rcases mem_insertFrame.1 hin with rfl | hin
      · rw [hkind] at hg
        cases hg
      · exact hin
    rw [offer_release] at hmem
    rcases offerFrame_queue (ownFrame _ (.release e.number 0)) (updateEntry e.key (Entry.ended cause s.clock.stationTime)
      (supervisedTable s e)) with ⟨-, hq⟩ | ⟨q, hsub, -, hq⟩ | hq <;> rw [hq] at hmem
    · exact hrelease rfl hmem
    · exact hsub.subset (hrelease rfl hmem)
    · exact hmem
  · exact hmem

/-- What an ending by a stage leaves beside the entry, behind the closing selection (R93 to R96). -/
theorem endedByStage (h : OnlyStagedOn s e) (hend : endingDue s e = some cause) :
    EndedByStage s e cause (select (supervisedState s e)) where
  quiet := fun hkept f hf hkind => h.ended_quiet hend hkept hf hkind
  cues := h.ended_cues_remote hend
  origin := fun hremote ho => by rw [h.ended_peers_remote hend hremote, if_pos ⟨rfl, ho⟩]
  others := fun p hp => by
    cases hlocal : e.isLocal with
    | true => exact h.ended_peers_local hend hlocal p
    | false =>
      have hne : p ≠ e.origin := hp.resolve_right (by rw [hlocal]; exact Bool.false_ne_true)
      rw [h.ended_peers_remote hend hlocal, if_neg fun heq => hne heq.1]
  lapse := fun hremote hcause hroom => by
    subst hcause
    exact ⟨_, h.frame_kept hend hremote (lapse_queued hremote hroom) rfl, rfl, rfl, rfl⟩
  release := fun hlocal hroom => by
    have hmem := endEntry_release (cause := cause) (h.before_entry cause) h.before_live hlocal (.inl (beforeEnding_link hend hroom).1)
    have hother := mem_otherFrames.2 ⟨hmem, rfl⟩
    rw [← supervisedState_some hend, ← select_others] at hother
    exact ⟨_, (mem_otherFrames.1 hother).1, rfl, congrArg Settings.station (beforeEnding_settings s e cause)⟩
  channel := fun hlocal c hsource hactive => by
    rw [h.ended_cues_local hend hlocal, hsource,
      cueNotice_channel (s := s.setClock { s.clock with ageStepDue := false }) (ne_released hend) hactive]
    rcases endingDue_cases hend with rfl | rfl <;> rfl
  manual := fun hlocal hsource => by
    rw [h.ended_cues_local hend hlocal, hsource, cueNotice_manual (ne_released hend)]
    rfl

end OnlyStagedOn

end Sys2Proof.Machine
end
section
/-! The slot behind the stages of an overrun (R48, R49, R51), and the age step in which they fire. -/

namespace Sys2Proof.Machine

/-! ### The best WAITING candidate and the slot -/

/-- A change of an entry that does not wait, before it or after it, leaves the WAITING candidates. -/
theorem bestWaiting_updateEntry {k : Byte × Byte} {f : Entry → Entry} {s : State}
    (h : ∀ x ∈ s.claims.entries, x.key = k → x.state ≠ .waiting ∧ (f x).state ≠ .waiting) :
    (updateEntry k f s).bestWaiting = s.bestWaiting := by
  have hfilter : ∀ l : List Entry, (∀ x ∈ l, x.key = k → x.state ≠ .waiting ∧ (f x).state ≠ .waiting) →
      (l.map fun x => if x.key = k then f x else x).filter (fun x => x.state == .waiting && x.candidate) =
        l.filter fun x => x.state == .waiting && x.candidate := by
    intro l
    induction l with
    | nil => exact fun _ => rfl
    | cons x l ih =>
      intro hl
      have hrest := ih fun y hy => hl y (List.mem_cons_of_mem x hy)
      rw [List.map_cons]
      by_cases hk : x.key = k
      · obtain ⟨hx, hfx⟩ := hl x List.mem_cons_self hk
        rw [if_pos hk, List.filter_cons_of_neg (by simp [hfx]), List.filter_cons_of_neg (by simp [hx]), hrest]
      · rw [if_neg hk, List.filter_cons, List.filter_cons, hrest]
  rw [bestWaiting_eq, bestWaiting_eq, updateEntry_eq]
  exact congrArg best (hfilter s.claims.entries h)

/-- A table of no candidates has no best one. -/
theorem bestWaiting_none {s : State} (h : ∀ x ∈ s.claims.entries, x.candidate = false) : s.bestWaiting = none := by
  rw [bestWaiting_eq, best_eq_none, List.filter_eq_nil_iff]
  intro x hx
  rw [h x hx, Bool.and_false]
  exact Bool.false_ne_true

/-- The entry that takes an emptied slot moves to ON_AIR. -/
def shownOnAir (shown : Option Entry) (s : State) : State := shown.elim s fun x => setEntryState x.key .onAir s

/-- R51: an emptied slot is filled from the WAITING candidates, or stays empty, in one on-air change. -/
theorem fillSlot_emptied (old : Byte) (s : State) : fillSlot old true s = onAirChange old s.bestWaiting (shownOnAir s.bestWaiting s) := by
  unfold fillSlot
  cases s.bestWaiting <;> rfl

theorem shownOnAir_keeps (shown : Option Entry) (s : State) : (shownOnAir shown s).settings = s.settings
    ∧ (shownOnAir shown s).clock = s.clock ∧ (shownOnAir shown s).selector = s.selector ∧ (shownOnAir shown s).cells = s.cells
    ∧ (shownOnAir shown s).tx = s.tx ∧ (shownOnAir shown s).port = s.port := by
  cases shown <;> exact ⟨rfl, rfl, rfl, rfl, rfl, rfl⟩

theorem changedTo_congr {s t : State} (hsettings : t.settings = s.settings) (hsecond : t.clock.secondCount = s.clock.secondCount)
    (hsequence : t.selector.sequence = s.selector.sequence) (shown : Option Entry) : changedTo shown t = changedTo shown s := by
  unfold changedTo
  rw [hsettings, hsecond, hsequence]

namespace OnlyStagedOn
variable {s : State} {e : Entry} {cause : EndCause}

theorem onAir_key (h : OnlyStagedOn s e) (hair : e.state = .onAir) : s.selector.onAir = some e.key := (h.ok.onAir_iff h.entry).1 hair

theorem table_bestWaiting (h : OnlyStagedOn s e) (hair : e.state = .onAir) : (supervisedTable s e).bestWaiting = bestAged s := by
  rw [← agedTable_bestWaiting, ← bestWaiting_updateEntry (s := agedTable s) (k := e.key)
    (f := afterStages s.settings (stagesDue s e))]
  · rfl
  · intro x hx hkey
    have hxe : x = agedBy s e := Option.some.inj ((entry_of_mem h.aged_ok.distinct hx).symm.trans (hkey ▸ h.aged_entry))
    rw [(afterStages_keeps s.settings (stagesDue s e) x).2.2.2.2.1, hxe, show (agedBy s e).state = .onAir from hair]
    exact ⟨nofun, nofun⟩

/-! ### An entry that goes on -/

/-- An ON_AIR entry that goes on is displaced by the best WAITING candidate where that passes the test with the guard stopped. -/
theorem displaced (h : OnlyStagedOn s e) (hair : e.state = .onAir) {x : Entry} (hx : bestAged s = some x)
    (hguard : s.selector.guard = none) (hdisplaces : displaces s x (supervisedBy s e)) :
    select (supervisedTable s e) = onAirChange e.origin (some x)
      (setEntryState x.key .onAir (setEntryState e.key .waiting (supervisedTable s e))) :=
  select_displaces (s := supervisedTable s e) (y := supervisedBy s e) (h.onAir_key hair) h.table_entry
    ((h.table_bestWaiting hair).trans hx) hguard hdisplaces

theorem best_key_ne (h : OnlyStagedOn s e) (hair : e.state = .onAir) {x : Entry} (hx : bestAged s = some x) : e.key ≠ x.key := by
  intro heq
  obtain ⟨hmem, hwaiting, -⟩ := bestWaiting_spec ((agedTable_bestWaiting s).trans hx)
  have hxe : x = agedBy s e := Option.some.inj ((entry_of_mem h.aged_ok.distinct hmem).symm.trans (heq ▸ h.aged_entry))
  rw [hxe, show (agedBy s e).state = .onAir from hair] at hwaiting
  cases hwaiting

theorem displaced_entry (h : OnlyStagedOn s e) (hair : e.state = .onAir) {x : Entry} (hx : bestAged s = some x) :
    (onAirChange e.origin (some x) (setEntryState x.key .onAir (setEntryState e.key .waiting (supervisedTable s e)))).entry e.key =
      some { supervisedBy s e with state := .waiting } := by
  rw [onAirChange_entry, setEntryState_entry, if_neg (h.best_key_ne hair hx), setEntryState_entry, if_pos rfl, h.table_entry]
  rfl

/-- An ON_AIR entry that goes on and is not displaced keeps the slot. -/
theorem stands (h : OnlyStagedOn s e) (hair : e.state = .onAir)
    (hstands : ∀ x, bestAged s = some x → s.selector.guard ≠ none ∨ ¬ displaces s x (supervisedBy s e)) :
    select (supervisedTable s e) = supervisedTable s e := by
  refine select_stands (s := supervisedTable s e) (h.onAir_key hair) fun x y hx hy => ?_
  rw [h.table_bestWaiting hair] at hx
  rw [← Option.some.inj (h.table_entry.symm.trans hy)]
  exact hstands x hx

/-! ### An ON_AIR entry that is ended -/

/-- The state in which the slot of an ended ON_AIR entry is filled. -/
def slotEmptied (s : State) (e : Entry) (cause : EndCause) : State :=
  (endingTold e.key cause (supervisedBy s e) (beforeEnding s e cause)).setSelector { s.selector with onAir := none }

theorem ended_refills (h : OnlyStagedOn s e) (hend : endingDue s e = some cause) (hair : e.state = .onAir) :
    supervisedState s e = fillSlot e.origin true (slotEmptied s e cause) := by
  have hselector : (endingTold e.key cause (supervisedBy s e) (beforeEnding s e cause)).selector = s.selector :=
    (endingTold_selector _ _ _ _).trans (beforeEnding_keeps s e cause).2.2.1
  rw [supervisedState_some hend, endEntry_of_live (h.before_entry cause) (live_iff.2 h.before_live)]
  unfold slotEmptied
  rw [← hselector]
  exact if_pos hair

theorem emptied_bestWaiting (h : OnlyStagedOn s e) (hair : e.state = .onAir) :
    (slotEmptied s e cause).bestWaiting = bestAged s := by
  have htold : (slotEmptied s e cause).claims.entries =
      (updateEntry e.key (Entry.ended cause (beforeEnding s e cause).clock.stationTime) (beforeEnding s e cause)).claims.entries :=
    congrArg ClaimTable.entries (endingTold_entries _ _ _ _)
  rw [bestWaiting_congr htold, bestWaiting_updateEntry,
    bestWaiting_congr (congrArg ClaimTable.entries (beforeEnding_keeps s e cause).2.1), h.table_bestWaiting hair]
  intro x hx hkey
  have hxe : x = supervisedBy s e :=
    Option.some.inj ((entry_of_mem (h.before_ok cause).distinct hx).symm.trans (hkey ▸ h.before_entry cause))
  rw [hxe, show (supervisedBy s e).state = .onAir from hair]
  exact ⟨nofun, nofun⟩

theorem tellEnding_cells (x : Entry) (cause : EndCause) (t : State) : (tellEnding x cause t).cells = t.cells := by
  unfold tellEnding
  split
  · simp
  · split <;> simp

theorem emptied_keeps (s : State) (e : Entry) (cause : EndCause) : (slotEmptied s e cause).settings = s.settings
    ∧ (slotEmptied s e cause).clock.secondCount = s.clock.secondCount
    ∧ (slotEmptied s e cause).clock.stationTime = s.clock.stationTime ∧ (slotEmptied s e cause).cells = s.cells := by
  have hground : sameGround (beforeEnding s e cause) (slotEmptied s e cause) := by
    unfold sameGround slotEmptied endingTold tellEnding
    split
    · simp
    · split <;> simp
  obtain ⟨-, -, hclock, hsettings, -⟩ := hground
  refine ⟨hsettings.trans (beforeEnding_settings s e cause), ?_, ?_, ?_⟩
  · rw [hclock, beforeEnding_clock]
  · rw [hclock, beforeEnding_clock]
  · show (activity _).cells = _
    rw [(activeFrom_activity _).cells, tellEnding_cells]
    exact (beforeEnding_keeps s e cause).2.2.2.2.2

/-- The ending posts nothing beside the events of the stages before the slot is filled, and the queue takes a PRESENCE. -/
theorem told_quiet (hend : endingDue s e = some cause) (hroom : s.tx.queue.length < 7) :
    (endingTold e.key cause (supervisedBy s e) (beforeEnding s e cause)).port = stagesPosted s e
    ∧ takesPresence (endingTold e.key cause (supervisedBy s e) (beforeEnding s e cause)).tx.queue := by
  obtain ⟨hlength, hport⟩ := beforeEnding_link hend hroom
  let ended := updateEntry e.key (Entry.ended cause (beforeEnding s e cause).clock.stationTime) (beforeEnding s e cause)
  have htold : (tellEnding (supervisedBy s e) cause ended).port = (beforeEnding s e cause).port
      ∧ takesPresence (tellEnding (supervisedBy s e) cause ended).tx.queue := by
    cases hlocal : e.isLocal with
    | true =>
      obtain ⟨htport, hqueue⟩ := tellEnding_local_link (e := supervisedBy s e) hlocal cause (s := ended) hlength
      refine ⟨htport, .inl ?_⟩
      rw [hqueue, length_insertFrame]
      show (beforeEnding s e cause).tx.queue.length + 1 < 8
      rw [beforeEnding_kept (.inr hlocal)]
      exact Nat.succ_lt_succ hroom
    | false =>
      obtain ⟨htport, htx, -⟩ := tellEnding_remote_link (e := supervisedBy s e) hlocal cause ended
      exact ⟨htport, by rw [htx]; exact .inl hlength⟩
  obtain ⟨hquiet, htakes⟩ := activity_quiet htold.2
  exact ⟨hquiet.trans (htold.1.trans hport), htakes⟩

/-- The slot behind the ending of an ON_AIR entry (R50 to R56). -/
theorem ended_slot (h : OnlyStagedOn s e) (hend : endingDue s e = some cause) (hair : e.state = .onAir) :
    (supervisedState s e).selector = changedTo (bestAged s) s ∧ (supervisedState s e).cells = { s.cells with burst := 3 }
    ∧ (s.tx.queue.length < 7 → (supervisedState s e).port =
        portWith (changeEvent s.clock.stationTime e.origin (bestAged s)) (stagesPosted s e)) := by
  obtain ⟨hsettings, hsecond, htime, hcells⟩ := emptied_keeps s e cause
  obtain ⟨ksettings, kclock, kselector, kcells, ktx, kport⟩ := shownOnAir_keeps (bestAged s) (slotEmptied s e cause)
  rw [h.ended_refills hend hair, fillSlot_emptied, h.emptied_bestWaiting hair]
  refine ⟨?_, ?_, fun hroom => ?_⟩
  · rw [onAirChange_selector]
    exact changedTo_congr (ksettings.trans hsettings) (by rw [kclock]; exact hsecond) (by rw [kselector]; rfl) _
  · rw [onAirChange_cells, kcells, hcells]
  · obtain ⟨hport, htakes⟩ := told_quiet hend hroom
    rw [(onAirChange_quiet (by rw [ktx]; exact htakes)).1, kclock, htime, kport]
    exact congrArg _ hport

/-- The closing selection leaves the slot that the ending has filled, while the guard runs or nothing waits. -/
theorem ended_closes (h : OnlyStagedOn s e) (hend : endingDue s e = some cause) (hair : e.state = .onAir)
    (hheld : s.settings.guardTime ≠ 0 ∨ bestAged s = none) : select (supervisedState s e) = supervisedState s e := by
  have hselector := (h.ended_slot hend hair).1
  cases hbest : bestAged s with
  | none =>
    rw [hbest] at hselector
    refine select_empty (congrArg Selector.onAir hselector) ?_
    rw [h.ended_refills hend hair, fillSlot_emptied, h.emptied_bestWaiting hair, hbest]
    exact (bestWaiting_congr (congrArg ClaimTable.entries (onAirChange_claims _ _ _))).trans
      ((h.emptied_bestWaiting hair).trans hbest)
  | some x =>
    have hguard := hheld.resolve_right (by rw [hbest]; exact nofun)
    rw [hbest] at hselector
    exact select_guarded (n := s.clock.secondCount + s.settings.guardTime)
      ((congrArg Selector.guard hselector).trans (if_neg hguard)) (k := x.key) (congrArg Selector.onAir hselector)

/-! ### The whole step -/

theorem other_alike (h : OnlyStagedOn s e) {x : Entry} (hx : x ∈ s.claims.entries) (hne : x ≠ e) :
    ∃ y, (select (supervisedState s e)).entry x.key = some y ∧ y.alike (afterAge s x) := by
  obtain ⟨st, hst⟩ := h.state_other hx hne
  obtain ⟨st', hst', -⟩ := select_entry h.state_ok.distinct hst
  exact ⟨_, hst', rfl⟩

/-- The step in which the stages end no entry. -/
theorem goesOn (h : OnlyStagedOn s e) (hend : endingDue s e = none) :
    (∃ y, (select (supervisedState s e)).entry e.key = some y ∧ y.alike (supervisedBy s e))
    ∧ (select (supervisedState s e)).cues = s.cues ∧ (select (supervisedState s e)).peers = s.peers
    ∧ (∀ x, e.state = .onAir → bestAged s = some x → s.selector.guard = none → displaces s x (supervisedBy s e) →
        (select (supervisedState s e)).selector = changedTo (some x) s
        ∧ (select (supervisedState s e)).entry e.key = some { supervisedBy s e with state := .waiting }
        ∧ (select (supervisedState s e)).cells = { s.cells with burst := 3 }
        ∧ (s.tx.queue.length < 8 → (select (supervisedState s e)).port =
            portWith (changeEvent s.clock.stationTime e.origin (some x)) (stagesPosted s e)))
    ∧ (e.state = .onAir → (∀ x, bestAged s = some x → s.selector.guard ≠ none ∨ ¬ displaces s x (supervisedBy s e)) →
        (select (supervisedState s e)).selector = s.selector
        ∧ (select (supervisedState s e)).entry e.key = some (supervisedBy s e)
        ∧ (select (supervisedState s e)).cells = s.cells ∧ (select (supervisedState s e)).tx = s.tx
        ∧ (select (supervisedState s e)).port = stagesPosted s e) := by
  have hport : (supervisedTable s e).port = stagesPosted s e := by
    rw [supervisedTable_port, hend]
    exact (if_neg fun h => nomatch h.2).symm
  rw [supervisedState_none hend]
  refine ⟨?_, (select_keeps _).2.2.2.2.1, (select_keeps _).2.2.2.2.2.1, fun x hair hx hguard hdisplaces => ?_, fun hair hstands => ?_⟩
  · obtain ⟨st, hst, -⟩ := select_entry h.table_ok.distinct h.table_entry
    exact ⟨_, hst, rfl⟩
  · rw [h.displaced hair hx hguard hdisplaces]
    refine ⟨?_, h.displaced_entry hair hx, onAirChange_cells _ _ _, fun hroom => ?_⟩
    · rw [onAirChange_selector]
      obtain ⟨hselector, -, -, -, -, hsettings, hclock, -⟩ := supervisedTable_keeps s e
      exact changedTo_congr (by simp [hsettings]) (by simp [hclock]) (by simp [hselector]) _
    · rw [← hport]
      exact onAirChange_port (s := setEntryState x.key .onAir (setEntryState e.key .waiting (supervisedTable s e))) hroom
  · rw [h.stands hair hstands]
    obtain ⟨hselector, -, htx, -, hcells, -⟩ := supervisedTable_keeps s e
    exact ⟨hselector, h.table_entry, hcells, htx, hport⟩

/-- The step in which a stage ends the entry. -/
theorem ends (h : OnlyStagedOn s e) (hend : endingDue s e = some cause) :
    (select (supervisedState s e)).entry e.key = some (endedAs cause s.clock.stationTime (supervisedBy s e))
    ∧ (select (supervisedState s e)).selector.onAir ≠ some e.key
    ∧ (select (supervisedState s e)).presence = presenceActive
    ∧ EndedByStage s e cause (select (supervisedState s e))
    ∧ (e.state = .onAir → (s.settings.guardTime ≠ 0 ∨ bestAged s = none) →
        (select (supervisedState s e)).selector = changedTo (bestAged s) s
        ∧ (select (supervisedState s e)).cells = { s.cells with burst := 3 }
        ∧ (s.tx.queue.length < 7 → (select (supervisedState s e)).port =
            portWith (changeEvent s.clock.stationTime e.origin (bestAged s)) (stagesPosted s e))) := by
  have hentry := h.ended_entry hend
  have hne := h.ended_onAir_ne hend
  refine ⟨select_entry_ending h.state_ok.distinct hentry rfl hne, select_onAir_ne h.state_ok.distinct hentry rfl hne,
    select_presence (h.ended_presence hend), h.endedByStage hend, fun hair hheld => ?_⟩
  rw [h.ended_closes hend hair hheld]
  exact h.ended_slot hend hair

/-! ### The only entry, a WAITING non-candidate -/

theorem of_only {e : Entry} {s : State} (hentries : s.claims.entries = [e]) (hair : s.selector.onAir = none)
    (hwaiting : e.state = .waiting) (hmade : e.madeSecond ≠ s.clock.secondCount) (hdemotions : e.demotions ≤ 3) :
    OnlyStagedOn s e where
  ok := by
    refine ⟨?_, ?_⟩
    · unfold distinctClaims
      rw [hentries]
      exact List.pairwise_singleton _ _
    · unfold slotAgrees
      rw [hentries, hair, List.filter_cons_of_neg (by rw [hwaiting]; decide)]
      rfl
  mem := by rw [hentries]; exact List.mem_singleton_self e
  steps := ⟨by rw [hwaiting]; decide, hmade⟩
  demotions := hdemotions
  others := fun x hx hne => by
    rw [hentries] at hx
    exact absurd (List.mem_singleton.1 hx) hne

theorem only_entries (h : OnlyStagedOn s e) (hentries : s.claims.entries = [e]) :
    (supervisedTable s e).claims = { s.claims with entries := [supervisedBy s e] } := by
  have haged : (agedTable s).claims.entries = [agedBy s e] := by
    show s.claims.entries.map (afterAge s) = _
    rw [hentries, List.map_singleton, afterAge_of_stepped h.steps]
  rw [supervisedTable_claims, updateEntry_eq, haged, List.map_singleton, if_pos (show (agedBy s e).key = e.key from rfl),
    ← supervisedBy_eq h.demotions]
  rfl

/-- With no candidate in the table the closing selection leaves an empty slot. -/
theorem select_only {x : Entry} {t : State} (hair : t.selector.onAir = none) (hentries : t.claims.entries = [x])
    (hcandidate : x.candidate = false) : select t = t := by
  refine select_empty hair (bestWaiting_none fun y hy => ?_)
  rw [hentries] at hy
  rw [List.mem_singleton.1 hy, hcandidate]

/-- The ending of the only entry, a WAITING non-candidate, tells its source and its origin and leaves the slot empty. -/
theorem only_ended (h : OnlyStagedOn s e) (hend : endingDue s e = some cause) (hentries : s.claims.entries = [e])
    (hair : s.selector.onAir = none) (hwaiting : e.state = .waiting) (hcandidate : e.candidate = false) :
    supervisedState s e = endingTold e.key cause (supervisedBy s e) (beforeEnding s e cause) := by
  obtain ⟨-, hclaims, hselector, -⟩ := beforeEnding_keeps s e cause
  rw [supervisedState_some hend]
  refine endEntry_alone (h.before_entry cause) hwaiting (by rw [hselector]; exact hair) fun x hx => ?_
  rw [hclaims, h.only_entries hentries] at hx
  rw [List.mem_singleton.1 hx]
  exact hcandidate

theorem only_ended_claims (h : OnlyStagedOn s e) (cause : EndCause) (hentries : s.claims.entries = [e]) :
    (endingTold e.key cause (supervisedBy s e) (beforeEnding s e cause)).claims =
      { s.claims with entries := [endedAs cause s.clock.stationTime (supervisedBy s e)] } := by
  have hkey : (supervisedBy s e).key = e.key := rfl
  rw [endingTold_entries, updateEntry_eq, State.setClaims_claims, (beforeEnding_keeps s e cause).2.1, h.only_entries hentries,
    List.map_singleton, if_pos hkey, beforeEnding_clock]
  rfl

end OnlyStagedOn

/-- Settles O28: the step of the only entry, and that of an entry of any table. -/
theorem anOverrunStageActs : Obligations.AnOverrunStageActs := by
  refine ⟨fun e s hr hdue hentries hair hwaiting hcandidate hmade hdemotions => ?_,
    fun e s hr hdue hd hslot hmem hstep hdemotions hothers => ?_⟩
  · have h := OnlyStagedOn.of_only hentries hair hwaiting hmade hdemotions
    cases hend : endingDue s e with
    | none =>
      have hclaims := h.only_entries hentries
      have hexec := h.exec hr hdue
      rw [supervisedState_none hend,
        OnlyStagedOn.select_only (t := supervisedTable s e) hair (congrArg ClaimTable.entries hclaims) hcandidate] at hexec
      obtain ⟨hselector, hcues, htx, hpeers, hcells, hsettings, -⟩ := supervisedTable_keeps s e
      refine ⟨_, hexec, hselector, hsettings, hcells, hclaims, ?_, htx, hcues, hpeers⟩
      rw [supervisedTable_port, hend]
      exact (if_neg fun h => nomatch h.2).symm
    | some cause =>
      have hclaims := h.only_ended_claims cause hentries
      have htold := h.only_ended hend hentries hair hwaiting hcandidate
      have hselector : (supervisedState s e).selector = s.selector := by
        rw [htold, endingTold_selector]
        exact (beforeEnding_keeps s e cause).2.2.1
      rw [← htold] at hclaims
      have hcloses : select (supervisedState s e) = supervisedState s e :=
        OnlyStagedOn.select_only ((congrArg Selector.onAir hselector).trans hair) (congrArg ClaimTable.entries hclaims) hcandidate
      have hended := h.endedByStage hend
      have hexec := h.exec hr hdue
      rw [hcloses] at hended hexec
      refine ⟨_, hexec, hselector, OnlyStagedOn.state_settings s e, ?_, hclaims, h.ended_presence hend, hended, fun hroom => ?_⟩
      · rw [htold]
        exact (OnlyStagedOn.emptied_keeps s e cause).2.2.2
      · rw [htold]
        exact (OnlyStagedOn.told_quiet hend hroom).1
  · have h : OnlyStagedOn s e := ⟨⟨hd, hslot⟩, hmem, hstep, hdemotions, hothers⟩
    refine ⟨_, h.exec hr hdue, (select_keeps _).2.2.2.1.trans (OnlyStagedOn.state_settings s e),
      (keys_select _).trans (OnlyStagedOn.state_keys s e), fun x hx hne => h.other_alike hx hne, ?_⟩
    cases hend : endingDue s e with
    | none => exact h.goesOn hend
    | some cause => exact h.ends hend

end Sys2Proof.Machine
end
